-- ==== Sys2Proof/Word.lean ====
section
/-! DEFINITION. The word types of the engine: the byte (u8) and the 16-bit unsigned value (u16) of
spec/00_scope.md R12. -/

namespace Sys2Proof

/-- A byte, u8 (00_scope.md R12). -/
abbrev Byte := BitVec 8

/-- A 16-bit unsigned value, u16 (00_scope.md R12). -/
abbrev U16 := BitVec 16

end Sys2Proof
end

