-- ==== Sys2Proof/Config.lean ====
section
/-! DEFINITION. The configuration of spec/00_scope.md R7: what one instance of the engine fixes. The
CRC parameters and the ACK status bytes are fixed by the spec and are no configuration (R8). -/

namespace Sys2Proof

/-- The named fields of 00_scope.md R7. Lengths, the period and the tick width are counts. -/
structure Config where
  /-- First start marker, `SOF0`. -/
  sof0 : Byte
  /-- Second start marker, `SOF1`; it may equal `SOF0` (R8). -/
  sof1 : Byte
  /-- Type code `T_REQUEST_DATA`. -/
  tRequestData : Byte
  /-- Type code `T_DATA`. -/
  tData : Byte
  /-- Type code `T_ACK`. -/
  tAck : Byte
  /-- Type code `T_FINISH`. -/
  tFinish : Byte
  /-- Type code `T_END`. -/
  tEnd : Byte
  /-- `CAP`, the payload buffer's capacity in bytes. -/
  cap : Nat
  /-- `DATA_LEN`, the payload length of an acceptable DATA frame. -/
  dataLen : Nat
  /-- `RETRY_PERIOD` in ticks. -/
  retryPeriod : Nat
  /-- `TICK_W`, the width of the time source in bits. -/
  tickW : Nat
  deriving DecidableEq, Repr

namespace Config

/-- OPEN in R7 (D1): the device's `SOF0`. -/
opaque openSof0 : Byte
/-- OPEN in R7 (D1): the device's `SOF1`. -/
opaque openSof1 : Byte
/-- OPEN in R7 (D2): the device's code for REQUEST_DATA. -/
opaque openRequestData : Byte
/-- OPEN in R7 (D2): the device's code for DATA. -/
opaque openData : Byte
/-- OPEN in R7 (D2): the device's code for ACKNOWLEDGEMENT. -/
opaque openAck : Byte
/-- OPEN in R7 (D2): the device's code for FINISH. -/
opaque openFinish : Byte
/-- OPEN in R7 (D2): the device's code for END. -/
opaque openEnd : Byte
/-- OPEN in R7 (D6): the device's tick width. -/
opaque openTickW : Nat

/-- The configuration "this hardware takes" (R7): the reference values of D3, D4 and D5, and nothing
known of the OPEN parameters. Log 1. -/
def device : Config where
  sof0 := openSof0
  sof1 := openSof1
  tRequestData := openRequestData
  tData := openData
  tAck := openAck
  tFinish := openFinish
  tEnd := openEnd
  cap := 401
  dataLen := 401
  retryPeriod := 20
  tickW := openTickW

/-- Test configuration TC1 of 00_scope.md R9; "a model must not take these values as the
hardware's". Used by the decoding interface of the host (log 11) and by tests. -/
def tc1 : Config where
  sof0 := 0xAA
  sof1 := 0x55
  tRequestData := 0x01
  tData := 0x02
  tAck := 0x03
  tFinish := 0x04
  tEnd := 0x05
  cap := 401
  dataLen := 401
  retryPeriod := 20
  tickW := 32

/-- Test configuration TC2 of 00_scope.md R9: TC1 with `CAP = DATA_LEN = 4`. Used by tests only. -/
def tc2 : Config := { tc1 with cap := 4, dataLen := 4 }

end Config

end Sys2Proof
end

