-- ==== Sys2Proof/Machine/Wire.lean ====
section
/-! DEFINITION. Byte order and the frame layout of the wire (spec/20_memory.md R54,
spec/30_encoding.md R70, R71): the helpers that the decoder, the parser and the serializer share. -/

namespace Sys2Proof.Machine

/-- `v[7:0]`. -/
def lo8 (v : U16) : Byte := v.setWidth 8

/-- `v[15:8]`. -/
def hi8 (v : U16) : Byte := (v >>> 8).setWidth 8

/-- `[hi, lo]` joined into a u16, the concatenation of 00_scope.md R12. -/
def join16 (hi lo : Byte) : U16 := hi ++ lo

/-- `v[7:0] <- b` (R114, R116, R119). -/
def setLo8 (v : U16) (b : Byte) : U16 := join16 (hi8 v) b

/-- `v[15:8] <- b` (R115, R117, R120). -/
def setHi8 (v : U16) (b : Byte) : U16 := join16 b (lo8 v)

/-- The `n` low bytes of `v`, low byte first. -/
def leBytes : Nat → Nat → List Byte
  | 0, _ => []
  | n + 1, v => BitVec.ofNat 8 v :: leBytes n (v / 256)

/-- The value of a byte sequence, low byte first. -/
def ofLeBytes : List Byte → Nat
  | [] => 0
  | b :: bs => b.toNat + 256 * ofLeBytes bs

/-- A u16 on the wire: the low byte is sent first (R54). -/
def wire16 (v : U16) : List Byte := [lo8 v, hi8 v]

/-- The frame bytes the CRC covers before the payload: type, sequence, length, in wire order
(R55, R73). -/
def frameHeader (type : Byte) (seq len : U16) : List Byte :=
  type :: (wire16 seq ++ wire16 len)

/-- The length field of a payload, `L` of R70. -/
def lengthField (payload : List Byte) : U16 := BitVec.ofNat 16 payload.length

/-- The byte layout of a whole frame, R70: markers, type, sequence, length, payload, CRC. -/
def frameBytes (c : Config) (type : Byte) (seq : U16) (payload : List Byte) (crc : U16) :
    List Byte :=
  c.sof0 :: c.sof1 :: (frameHeader type seq (lengthField payload) ++ payload ++ wire16 crc)

/-- The seven bytes of R70 up to the length field: all the parser reads of a frame that it drops
(R117). -/
def headerBytes (c : Config) (type : Byte) (seq len : U16) : List Byte :=
  c.sof0 :: c.sof1 :: frameHeader type seq len

end Sys2Proof.Machine
end

