-- ==== Sys2Proof/Syntax.lean ====
section
/-! DEFINITION. The instructions: one constructor for each row of spec/opcode_table.json, with the
operands the row's event or frame carries. -/

namespace Sys2Proof

/-- The rows of spec/opcode_table.json in the table's order. The first six are the input events of
30_encoding.md R80; the next four are inbound frames (R70, R75, R117), which reach the engine as
bursts of `RX_BYTE` (log 9); the last three are the frames the engine transmits (R76), each
run as the event that transmits it (log 10). -/
inductive Instr where
  /-- `RX_BYTE(b)`, R110. -/
  | rxByte (b : Byte)
  /-- `POLL(now)`, R160. -/
  | poll (now : Nat)
  /-- `SET_IDLE(1)`, R181. -/
  | setIdle1
  /-- `SET_IDLE(0)`, R182. -/
  | setIdle0
  /-- `SEND_END`, R193. -/
  | sendEnd
  /-- `RESET`, R230. -/
  | reset
  /-- An inbound frame of type `T_DATA` with its sequence, payload and carried CRC, R140. -/
  | dataInbound (seq : U16) (payload : List Byte) (crc : U16)
  /-- An inbound frame of type `T_FINISH`, R142. -/
  | finishInbound (seq : U16) (payload : List Byte) (crc : U16)
  /-- An inbound frame of any other type, R143. -/
  | otherInbound (type : Byte) (seq : U16) (payload : List Byte) (crc : U16)
  /-- The header of an inbound frame whose declared length exceeds `CAP`, R117. -/
  | overlengthInbound (type : Byte) (seq : U16) (len : U16)
  /-- A REQUEST_DATA frame of the `POLL` step at tick `now`, R162, R163 and R191. -/
  | requestDataOutbound (now : Nat)
  /-- The ACKNOWLEDGEMENT frame of the `POLL` step at tick `now`, R164 and R192. -/
  | ackOutbound (now : Nat)
  /-- The END frame of a `SEND_END` step, R193. -/
  | endOutbound
  deriving DecidableEq, Repr

end Sys2Proof
end

