-- ==== Sys2Proof/WellFormed.lean ====
section
/-! DEFINITION. Which configurations are well-formed (spec/00_scope.md R8) and which instructions
are, under a configuration: each check is the range the operand's type has in the spec. -/

namespace Sys2Proof

/-- The five type codes of R7, in R8's order. -/
def Config.typeCodes (c : Config) : List Byte :=
  [c.tRequestData, c.tData, c.tAck, c.tFinish, c.tEnd]

/-- R8, its five conditions in its order. -/
def Config.wf (c : Config) : Bool :=
  decide c.typeCodes.Nodup
    && decide (1 ≤ c.cap ∧ c.cap ≤ 65535)
    && decide (1 ≤ c.dataLen ∧ c.dataLen ≤ c.cap)
    && decide (1 ≤ c.tickW)
    && decide (c.retryPeriod < 2 ^ c.tickW)

/-- A tick of the time source is a `TICK_W`-bit value (R80). -/
def Config.isTick (c : Config) (now : Nat) : Bool := decide (now < 2 ^ c.tickW)

/-- A payload that the parser takes whole: at most `CAP` bytes (R117), counted by a 16-bit length
field (R70). -/
def Config.isPayload (c : Config) (payload : List Byte) : Bool :=
  decide (payload.length ≤ c.cap ∧ payload.length < 2 ^ 16)

/-- The operands are values the row admits: a tick of the tick width, a payload within `CAP`, a type
code that selects the row (R75), a length that exceeds `CAP` (R117). -/
def Instr.wf (c : Config) : Instr → Bool
  | .rxByte _ => true
  | .poll now => c.isTick now
  | .setIdle1 => true
  | .setIdle0 => true
  | .sendEnd => true
  | .reset => true
  | .dataInbound _ payload _ => c.isPayload payload
  | .finishInbound _ payload _ => c.isPayload payload
  | .otherInbound type _ payload _ =>
    c.isPayload payload && decide (type ≠ c.tData) && decide (type ≠ c.tFinish)
  | .overlengthInbound _ _ len => decide (c.cap < len.toNat)
  | .requestDataOutbound now => c.isTick now
  | .ackOutbound now => c.isTick now
  | .endOutbound => true

end Sys2Proof
end

