-- ==== Sys2Proof/Decode.lean ====
section
/-! DEFINITION. Reading a transaction from the input stream, and writing one.

Inbound frames are coded as spec/30_encoding.md R70 lays them out, and the type byte selects the row
(R75). An event "is a transaction, not a coded word: it has no bit pattern" (R80): the leading port
byte, the bytes of an operand and the form of an outbound row are the model's own coding (log 3). -/

namespace Sys2Proof

open Machine (leBytes ofLeBytes join16 frameBytes headerBytes)

/-- Why bytes are no transaction of the interface. -/
inductive Reject where
  /-- The stream holds no byte. -/
  | noTransaction
  /-- The port byte names no port. -/
  | unknownPort
  /-- The stream ends inside the transaction. -/
  | truncated
  /-- The operand of SET_IDLE is not 0 or 1 (R80: v is 1 bit). -/
  | badIdleValue
  /-- The operand of a tick is not below 2^TICK_W (R80). -/
  | tickTooWide
  /-- A frame does not begin with the two start markers (R70). -/
  | badMarker
  /-- A type byte that the engine never transmits (R76). -/
  | notTransmitted
  deriving DecidableEq, Repr

/-- Port byte of `RX_BYTE`. -/
def portRx : Byte := 0x00
/-- Port byte of `POLL`. -/
def portPoll : Byte := 0x01
/-- Port byte of `SET_IDLE`. -/
def portIdle : Byte := 0x02
/-- Port byte of `SEND_END`. -/
def portEnd : Byte := 0x03
/-- Port byte of `RESET`. -/
def portReset : Byte := 0x04
/-- Port byte of an inbound frame. -/
def portFrameIn : Byte := 0x05
/-- Port byte of an outbound frame. -/
def portFrameOut : Byte := 0x06

/-- The first `n` bytes and the rest. -/
def takeBytes (n : Nat) (bs : List Byte) : Except Reject (List Byte × List Byte) :=
  if n ≤ bs.length then .ok (bs.take n, bs.drop n) else .error .truncated

/-- How many bytes code a tick of `TICK_W` bits. -/
def Config.tickBytes (c : Config) : Nat := (c.tickW + 7) / 8

/-- A tick operand, low byte first. -/
def decodeTick (c : Config) (mk : Nat → Instr) (bs : List Byte) :
    Except Reject (Instr × List Byte) :=
  match takeBytes c.tickBytes bs with
  | .error r => .error r
  | .ok (t, rest) =>
    if c.isTick (ofLeBytes t) then .ok (mk (ofLeBytes t), rest) else .error .tickTooWide

/-- `RX_BYTE(b)`: one byte (R80). -/
def decodeRx : List Byte → Except Reject (Instr × List Byte)
  | [] => .error .truncated
  | b :: rest => .ok (.rxByte b, rest)

/-- `SET_IDLE(v)`: v is one bit (R80), and the table has a row for each value. -/
def decodeIdle : List Byte → Except Reject (Instr × List Byte)
  | [] => .error .truncated
  | v :: rest =>
    if v = 0 then .ok (.setIdle0, rest)
    else if v = 1 then .ok (.setIdle1, rest)
    else .error .badIdleValue

/-- The row an inbound type byte selects (R75). -/
def inboundRow (c : Config) (type : Byte) (seq : U16) (payload : List Byte) (crc : U16) : Instr :=
  if type = c.tFinish then .finishInbound seq payload crc
  else if type = c.tData then .dataInbound seq payload crc
  else .otherInbound type seq payload crc

/-- The payload and the CRC that follow a header (R70, R72). -/
def decodeBody (c : Config) (type : Byte) (seq len : U16) (bs : List Byte) :
    Except Reject (Instr × List Byte) :=
  match takeBytes len.toNat bs with
  | .error r => .error r
  | .ok (payload, c0 :: c1 :: rest) => .ok (inboundRow c type seq payload (join16 c1 c0), rest)
  | .ok (_, _) => .error .truncated

/-- An inbound frame by R70 and R71; a length over `CAP` selects the dropped row, whose transaction
ends with the header (R117). -/
def decodeFrameIn (c : Config) : List Byte → Except Reject (Instr × List Byte)
  | m0 :: m1 :: type :: s0 :: s1 :: l0 :: l1 :: rest =>
    if m0 = c.sof0 ∧ m1 = c.sof1 then
      if c.cap < (join16 l1 l0).toNat then
        .ok (.overlengthInbound type (join16 s1 s0) (join16 l1 l0), rest)
      else decodeBody c type (join16 s1 s0) (join16 l1 l0) rest
    else .error .badMarker
  | _ => .error .truncated

/-- An outbound row, selected by its type code (R76); a REQUEST and an ACK carry the tick of the
`POLL` step that sends them (R160, log 10). -/
def decodeFrameOut (c : Config) : List Byte → Except Reject (Instr × List Byte)
  | [] => .error .truncated
  | type :: rest =>
    if type = c.tRequestData then decodeTick c .requestDataOutbound rest
    else if type = c.tAck then decodeTick c .ackOutbound rest
    else if type = c.tEnd then .ok (.endOutbound, rest)
    else .error .notTransmitted

/-- The transaction at the head of a byte stream and the rest of the stream; total, and every
refusal has a name. -/
def decode (c : Config) : List Byte → Except Reject (Instr × List Byte)
  | [] => .error .noTransaction
  | port :: rest =>
    if port = portRx then decodeRx rest
    else if port = portPoll then decodeTick c .poll rest
    else if port = portIdle then decodeIdle rest
    else if port = portEnd then .ok (.sendEnd, rest)
    else if port = portReset then .ok (.reset, rest)
    else if port = portFrameIn then decodeFrameIn c rest
    else if port = portFrameOut then decodeFrameOut c rest
    else .error .unknownPort

/-- The bytes of a tick operand. -/
def encodeTick (c : Config) (now : Nat) : List Byte := leBytes c.tickBytes now

/-- The bytes of an instruction: the port byte, then R70's layout for an inbound frame and the
model's operand coding for the rest (log 3). -/
def encode (c : Config) : Instr → List Byte
  | .rxByte b => [portRx, b]
  | .poll now => portPoll :: encodeTick c now
  | .setIdle1 => [portIdle, 1]
  | .setIdle0 => [portIdle, 0]
  | .sendEnd => [portEnd]
  | .reset => [portReset]
  | .dataInbound seq payload crc => portFrameIn :: frameBytes c c.tData seq payload crc
  | .finishInbound seq payload crc => portFrameIn :: frameBytes c c.tFinish seq payload crc
  | .otherInbound type seq payload crc => portFrameIn :: frameBytes c type seq payload crc
  | .overlengthInbound type seq len => portFrameIn :: headerBytes c type seq len
  | .requestDataOutbound now => portFrameOut :: c.tRequestData :: encodeTick c now
  | .ackOutbound now => portFrameOut :: c.tAck :: encodeTick c now
  | .endOutbound => [portFrameOut, c.tEnd]

/-- The most bytes a transaction has under TC1: a port byte and a DATA frame of `9 + CAP` bytes
(R70), or a port byte, a type byte and a tick. -/
def longestTransaction : Nat := 411

/-- A table word as bytes, its lowest bits first, then zeros up to the longest transaction. -/
def tableBytes (nbits w : Nat) : List Byte :=
  leBytes (nbits / 8) w ++ List.replicate (longestTransaction - nbits / 8) 0

/-- The instruction the decoder reads, under test configuration TC1 (log 11), from a word numbered
as spec/opcode_table.json numbers bits. -/
def decodeTableWord (nbits w : Nat) : Option Instr :=
  match decode Config.tc1 (tableBytes nbits w) with
  | .ok (i, _) => some i
  | .error _ => none

end Sys2Proof
end

