-- ==== Sys2Proof/Machine/Memory.lean ====
section
/-! DEFINITION. The payload buffer `Buf` (spec/10_state.md R29, spec/20_memory.md R50) as a list of
(index, byte) cells in one canonical form. Which indices exist is checked in Machine/Ops.lean. -/

namespace Sys2Proof.Machine

/-- The cells of the buffer: indices strictly rising, no cell equal to what an unlisted index reads
as. -/
abbrev Memory := List Host.Cell

/-- What an unlisted index reads as. The spec leaves the buffer's reset contents unspecified and
unobservable (R29, R33, 93 U4): DESIGN CHOICE, log 7. -/
def unwritten : Byte := 0x00

/-- One byte of the buffer. -/
def Memory.read : Memory → Nat → Byte
  | [], _ => unwritten
  | (k, v) :: m, a => if k = a then v else Memory.read m a

/-- `Buf[a] <- b`, keeping the canonical form. -/
def Memory.write : Memory → Nat → Byte → Memory
  | [], a, b => if b = unwritten then [] else [(a, b)]
  | (k, v) :: m, a, b =>
    if a < k then (if b = unwritten then (k, v) :: m else (a, b) :: (k, v) :: m)
    else if a = k then (if b = unwritten then m else (a, b) :: m)
    else (k, v) :: Memory.write m a b

/-- The canonical form. -/
def Memory.wf (m : Memory) : Bool :=
  decide (m.Pairwise fun x y => x.1 < y.1) && m.all fun c => decide (c.2 ≠ unwritten)

/-- `n` consecutive bytes from index `i`. -/
def Memory.readBytes (m : Memory) (i : Nat) : Nat → List Byte
  | 0 => []
  | n + 1 => m.read i :: Memory.readBytes m (i + 1) n

/-- A byte sequence stored from index `i` on, lowest index first. -/
def Memory.writeBytes (m : Memory) (i : Nat) : List Byte → Memory
  | [] => m
  | b :: bs => Memory.writeBytes (m.write i b) (i + 1) bs

end Sys2Proof.Machine
end

