-- ==== Sys2Proof/Machine/State.lean ====
section
/-! DEFINITION. The engine's state: every field of spec/10_state.md, the configuration it runs under,
and the event streams of its interface. Plain data throughout. -/

namespace Sys2Proof.Machine

/-- The framing parser's states, in R27's order. -/
inductive ParserState where
  /-- Waiting for the first start marker, R111. -/
  | seekSof0
  /-- Waiting for the second start marker, R112. -/
  | seekSof1
  /-- Waiting for the type byte, R113. -/
  | type
  /-- Waiting for the sequence's low byte, R114. -/
  | seq0
  /-- Waiting for the sequence's high byte, R115. -/
  | seq1
  /-- Waiting for the length's low byte, R116. -/
  | len0
  /-- Waiting for the length's high byte, R117. -/
  | len1
  /-- Taking payload bytes, R118. -/
  | data
  /-- Waiting for the CRC's low byte, R119. -/
  | crc0
  /-- Waiting for the CRC's high byte, R120. -/
  | crc1
  deriving DecidableEq, Repr

/-- The 4-bit codes of 30_encoding.md R81; codes 0xA to 0xF are the code of no state (log 18). -/
def ParserState.code : ParserState → BitVec 4
  | .seekSof0 => 0x0
  | .seekSof1 => 0x1
  | .type => 0x2
  | .seq0 => 0x3
  | .seq1 => 0x4
  | .len0 => 0x5
  | .len1 => 0x6
  | .data => 0x7
  | .crc0 => 0x8
  | .crc1 => 0x9

/-- The status of an acknowledgement decision (R24). -/
inductive AckStatus where
  /-- Status bit 0. -/
  | ok
  /-- Status bit 1. -/
  | error
  deriving DecidableEq, Repr

/-- A pending acknowledgement decision, `pending_ack` with `valid = 1` (R24). -/
structure Decision where
  /-- `pending_ack.status`. -/
  status : AckStatus
  /-- `pending_ack.seq`. -/
  seq : U16
  deriving DecidableEq, Repr

/-- The four kinds of output event (30_encoding.md R80). -/
inductive Output where
  /-- `TX(frame)`: the bytes of one whole frame to the transport. -/
  | tx (frame : List Byte)
  /-- `STORE(record)`: a record to the storage sink. -/
  | store (record : List Byte)
  /-- `IND_SET(v)`: the indicator on an idle setting. -/
  | indSet (v : Bool)
  /-- `IND_RECORD`: the indicator on an accepted record. -/
  | indRecord
  deriving DecidableEq, Repr

/-- Why the machine stops with a fault. The engine itself has no fault (60_exceptions.md R200). -/
inductive Fault where
  /-- A buffer access at an index that does not exist (not below `CAP`, 20_memory.md R50). Raised by
  `memWrite` and `memRead`, only in states that no run from RESET reaches (R51). Safe. Log 6. -/
  | bufferOutOfRange (index : Nat)
  deriving DecidableEq, Repr

/-- Why a step is refused. -/
inductive Refusal where
  /-- An instruction without a meaning; raised by `exec` only. Safe. -/
  | notModelled (mnemonic : String)
  /-- The configuration fails 00_scope.md R8: "A model refuses a configuration that fails one of
  them." Raised by `step`. Safe. Log 2. -/
  | illFormedConfig
  /-- The input stream's head is no transaction of the interface (30_encoding.md R80). Raised by
  `step`. Safe. Log 3. -/
  | undecodable (why : Reject)
  deriving DecidableEq, Repr

/-- The whole state. The first ten fields and the buffer are 10_state.md's; `cfg`, `inputs` and
`outputs` are the model's own (log 1, log 3, log 4). -/
structure State where
  /-- The configuration, the argument of the model (00_scope.md R7). No step writes it (R34). -/
  cfg : Config
  /-- `expected_sequence`, R22. -/
  expectedSequence : U16
  /-- `idle`, R23. -/
  idle : Bool
  /-- `pending_ack`, R24; `none` is `valid = 0`. -/
  pendingAck : Option Decision
  /-- `last_request_time`, R25: a tick, below `2 ^ TICK_W`. -/
  lastRequestTime : Nat
  /-- `req_due`, R26. -/
  reqDue : Bool
  /-- `fsm`, R27. -/
  fsm : ParserState
  /-- `f_type`, R28. -/
  fType : Byte
  /-- `f_seq`, R28. -/
  fSeq : U16
  /-- `f_len`, R28. -/
  fLen : U16
  /-- `f_crc`, R28. -/
  fCrc : U16
  /-- `data_idx`, R28. -/
  dataIdx : U16
  /-- `Buf`, R29. -/
  buf : Memory
  /-- The transactions still to come, in the total order of 20_memory.md R57, coded by
  `Sys2Proof.encode`. -/
  inputs : List Byte
  /-- Every output event so far, oldest first (00_scope.md R10, 20_memory.md R60). -/
  outputs : List Output
  deriving DecidableEq, Repr

/-- The outcome of a step of the engine. -/
abbrev Result := Host.Outcome State Fault Refusal

/-- The machine right after reset (70_reset_and_hazards.md R230): the five specified fields, and the
named values of log 5 and log 7 in the fields that R33 leaves unspecified. -/
def State.reset : State where
  cfg := Config.device
  expectedSequence := 0x0000
  idle := false
  pendingAck := none
  lastRequestTime := 0
  reqDue := true
  fsm := .seekSof0
  fType := 0x00
  fSeq := 0x0000
  fLen := 0x0000
  fCrc := 0x0000
  dataIdx := 0x0000
  buf := []
  inputs := []
  outputs := []

end Sys2Proof.Machine
end

