-- ==== Sys2Proof/Machine/Ops.lean ====
section
/-! DEFINITION. The named operations over state and buffer: a write of each field, `emit`, and the
memory primitives of spec/00_scope.md R13. The engine takes no exception (spec/60_exceptions.md
R200, R205), so there is no exception entry and no return here. -/

namespace Sys2Proof.Machine

/-- `expected_sequence <- v`. -/
def State.setExpected (v : U16) (s : State) : State := { s with expectedSequence := v }

/-- `idle <- v`. -/
def State.setIdle (v : Bool) (s : State) : State := { s with idle := v }

/-- `pending_ack <- v`, the whole register in one write (R24). -/
def State.setPending (v : Option Decision) (s : State) : State := { s with pendingAck := v }

/-- `last_request_time <- v`. -/
def State.setLastRequest (v : Nat) (s : State) : State := { s with lastRequestTime := v }

/-- `req_due <- v`. -/
def State.setReqDue (v : Bool) (s : State) : State := { s with reqDue := v }

/-- `fsm <- v`. -/
def State.setFsm (v : ParserState) (s : State) : State := { s with fsm := v }

/-- `f_type <- v`. -/
def State.setFType (v : Byte) (s : State) : State := { s with fType := v }

/-- `f_seq <- v`. -/
def State.setFSeq (v : U16) (s : State) : State := { s with fSeq := v }

/-- `f_len <- v`. -/
def State.setFLen (v : U16) (s : State) : State := { s with fLen := v }

/-- `f_crc <- v`. -/
def State.setFCrc (v : U16) (s : State) : State := { s with fCrc := v }

/-- `data_idx <- v`. -/
def State.setDataIdx (v : U16) (s : State) : State := { s with dataIdx := v }

/-- The buffer's contents. -/
def State.setBuf (v : Memory) (s : State) : State := { s with buf := v }

/-- The transactions still to come. -/
def State.setInputs (v : List Byte) (s : State) : State := { s with inputs := v }

/-- `emit E(args)`: append an output event to the step's output list (R13). -/
def State.emit (e : Output) (s : State) : State := { s with outputs := s.outputs ++ [e] }

/-- One operation after another; a stop ends the sequence. -/
def andThen (r : Result) (f : State → Result) : Result :=
  match r with
  | .next s => f s
  | .fault e => .fault e
  | .refused e => .refused e

/-- `MemWrite(i, 1, b)` (R13, 20_memory.md R51). An index that does not exist faults (log 6). -/
def memWrite (i : Nat) (b : Byte) (s : State) : Result :=
  if i < s.cfg.cap then .next (s.setBuf (s.buf.write i b)) else .fault (.bufferOutOfRange i)

/-- `MemRead(i, n)` (R13, 20_memory.md R52), or the fault of an index that does not exist (log 6).
A read of no byte touches no index. -/
def memRead (i n : Nat) (s : State) : Except Fault (List Byte) :=
  if n = 0 ∨ i + n ≤ s.cfg.cap then .ok (s.buf.readBytes i n)
  else .error (.bufferOutOfRange (i + n - 1))

end Sys2Proof.Machine
end

