-- ==== Sys2Proof/Machine/Crc.lean ====
section
/-! DEFINITION. The CRC engine (spec/40_crc_engine.md): pure functions without state. -/

namespace Sys2Proof.Machine

/-- `CRC_POLY` (R100). -/
def crcPoly : U16 := 0x1021

/-- `CRC_INIT` (R100). -/
def crcInit : U16 := 0xFFFF

/-- One round of R101's inner loop. -/
def crcBit (c : U16) : U16 :=
  if c.getLsbD 15 then (c <<< 1) ^^^ crcPoly else c <<< 1

/-- `n` rounds of the inner loop. -/
def crcBits : Nat → U16 → U16
  | 0, c => c
  | n + 1, c => crcBits n (crcBit c)

/-- One byte: it enters at the top, then eight rounds (R101). -/
def crcByte (c : U16) (b : Byte) : U16 := crcBits 8 (c ^^^ (b.setWidth 16 <<< 8))

/-- `CRCUpdate(crc, bytes)` (R101). -/
def crcUpdate (c : U16) (bytes : List Byte) : U16 := bytes.foldl crcByte c

/-- `CRC16(bytes)` (R102). -/
def crc16 (bytes : List Byte) : U16 := crcUpdate crcInit bytes

/-- `FrameCRC(type, seq, len, payload)` (R104), the header in wire order. -/
def frameCRC (type : Byte) (seq len : U16) (payload : List Byte) : U16 :=
  crcUpdate (crcUpdate crcInit (frameHeader type seq len)) payload

end Sys2Proof.Machine
end

