-- ==== Sys2Proof/Machine/Operands.lean ====
section
/-! DEFINITION. The operand forms: a tick of the time source and the elapsed time
(spec/00_scope.md R14, spec/43_poll_driver.md R162), and the ACK status byte (spec/30_encoding.md
R77). A byte, a bit and a frame need no form of their own. -/

namespace Sys2Proof.Machine

/-- `now : uTICK_W`: the `TICK_W` low bits of the operand. A well-formed operand is its own tick
(log 16). -/
def tickOf (c : Config) (now : Nat) : Nat := now % 2 ^ c.tickW

/-- `(now - last) mod 2^TICK_W` (R162). -/
def elapsed (c : Config) (now last : Nat) : Nat :=
  (tickOf c now + (2 ^ c.tickW - tickOf c last)) % 2 ^ c.tickW

/-- `ACK_OK` and `ACK_ERR`: 0x00 for ok, 0x01 for error (R77). -/
def statusByte : AckStatus → Byte
  | .ok => 0x00
  | .error => 0x01

end Sys2Proof.Machine
end

