-- ==== Sys2Proof/Machine/Serializer.lean ====
section
/-! DEFINITION. The frame serializer (spec/45_frame_serializer.md R190) and the three frames the
engine transmits (R191 to R193). -/

namespace Sys2Proof.Machine

/-- `Serialize(type, seq, payload)` (R190): R70's layout with the computed CRC. -/
def serialize (c : Config) (type : Byte) (seq : U16) (payload : List Byte) : List Byte :=
  frameBytes c type seq payload (frameCRC type seq (lengthField payload) payload)

/-- The REQUEST_DATA frame (R191). -/
def requestFrame (c : Config) (seq : U16) : List Byte := serialize c c.tRequestData seq []

/-- The ACKNOWLEDGEMENT frame of a decision (R192). -/
def ackFrame (c : Config) (d : Decision) : List Byte :=
  serialize c c.tAck d.seq [statusByte d.status]

/-- The END frame (R193). -/
def endFrame (c : Config) (seq : U16) : List Byte := serialize c c.tEnd seq []

end Sys2Proof.Machine
end

