-- ==== Sys2Proof/Machine/EndFrame.lean ====
section
/-! DEFINITION. The END frame (spec/45_frame_serializer.md R193) and the meaning of `SEND_END`. -/

namespace Sys2Proof.Machine

/-- `emit TX(Serialize(T_END, expected_sequence, []))` (R193); whether idle or not. -/
def emitEnd (s : State) : State := s.emit (.tx (endFrame s.cfg s.expectedSequence))

/-- `SEND_END` (R193). -/
def execSendEnd (s : State) : Result := .next (emitEnd s)

end Sys2Proof.Machine
end

