-- ==== Sys2Proof/Machine/Flags.lean ====
section
/-! DEFINITION. The flags `idle`, `pending_ack.valid` and `req_due` (spec/10_state.md R30) and the
effects that write them. No operation sets a flag but as its rule states. -/

namespace Sys2Proof.Machine

/-- `pending_ack <- (valid 1, status, seq)`: latest wins (42_message_handler.md R150). -/
def setDecision (status : AckStatus) (seq : U16) (s : State) : State :=
  s.setPending (some ⟨status, seq⟩)

/-- `pending_ack.valid <- 0`. -/
def clearDecision (s : State) : State := s.setPending none

/-- `IDLE_ON()` (44_idle_control.md R181). -/
def idleOn (s : State) : State := (clearDecision (s.setIdle true)).emit (.indSet true)

/-- `IDLE_OFF()` (44_idle_control.md R182). -/
def idleOff (s : State) : State := (s.setIdle false).emit (.indSet false)

end Sys2Proof.Machine
end

