-- ==== Sys2Proof/Machine/IdleControl.lean ====
section
/-! DEFINITION. Idle Control (spec/44_idle_control.md): the two rows of `SET_IDLE`. -/

namespace Sys2Proof.Machine

/-- `SET_IDLE(1)` (R180, R181); a repeated setting is not suppressed (R185). -/
def execSetIdle1 (s : State) : Result := .next (idleOn s)

/-- `SET_IDLE(0)` (R180, R182); a repeated setting is not suppressed (R185). -/
def execSetIdle0 (s : State) : Result := .next (idleOff s)

end Sys2Proof.Machine
end

