-- ==== Sys2Proof/Machine/Handler.lean ====
section
/-! DEFINITION. The Message Handler (spec/42_message_handler.md): the disposition of one complete
frame, inside the `RX_BYTE` step that completes it. -/

namespace Sys2Proof.Machine

/-- `STEP5_ACCEPT` (R145). The label byte `Buf[0]` is not output. -/
def acceptRecord (s : State) : Result :=
  match memRead 1 (s.cfg.dataLen - 1) s with
  | .error e => .fault e
  | .ok record =>
    .next (setDecision .ok s.expectedSequence ((s.emit (.store record)).emit .indRecord))

/-- The steps for a valid DATA frame, in order: the length check (R144), then the plain unsigned
comparison of the sequences (R145 to R148). -/
def handleData (s : State) : Result :=
  if s.fLen.toNat ≠ s.cfg.dataLen then .next (setDecision .error s.fSeq s)
  else if s.fSeq = s.expectedSequence then acceptRecord s
  else if s.fSeq < s.expectedSequence then .next (setDecision .ok s.fSeq s)
  else .next (setDecision .error s.fSeq s)

/-- `HANDLE()` (R140): the CRC check (R141), FINISH (R142), other types (R143), DATA. -/
def handle (s : State) : Result :=
  match memRead 0 s.fLen.toNat s with
  | .error e => .fault e
  | .ok payload =>
    if frameCRC s.fType s.fSeq s.fLen payload ≠ s.fCrc then .next (setDecision .error s.fSeq s)
    else if s.fType = s.cfg.tFinish then .next (idleOn s)
    else if s.fType ≠ s.cfg.tData then .next s
    else handleData s

end Sys2Proof.Machine
end

