-- ==== Sys2Proof/Machine/Parser.lean ====
section
/-! DEFINITION. The framing parser (spec/41_frame_deserializer.md): one byte per step, and the
meaning of `RX_BYTE`. -/

namespace Sys2Proof.Machine

/-- State `SeekSOF0` (R111). -/
def parseSeekSof0 (b : Byte) (s : State) : Result :=
  .next (s.setFsm (if b = s.cfg.sof0 then .seekSof1 else .seekSof0))

/-- State `SeekSOF1` (R112): a failing byte is discarded, even when it is `SOF0`. -/
def parseSeekSof1 (b : Byte) (s : State) : Result :=
  .next (s.setFsm (if b = s.cfg.sof1 then .type else .seekSof0))

/-- State `Type` (R113). -/
def parseType (b : Byte) (s : State) : Result := .next ((s.setFType b).setFsm .seq0)

/-- State `Seq0` (R114). -/
def parseSeq0 (b : Byte) (s : State) : Result := .next ((s.setFSeq (setLo8 s.fSeq b)).setFsm .seq1)

/-- State `Seq1` (R115). -/
def parseSeq1 (b : Byte) (s : State) : Result := .next ((s.setFSeq (setHi8 s.fSeq b)).setFsm .len0)

/-- State `Len0` (R116). -/
def parseLen0 (b : Byte) (s : State) : Result := .next ((s.setFLen (setLo8 s.fLen b)).setFsm .len1)

/-- The declared-length check at the end of state `Len1` (R117). -/
def checkLength (s : State) : State :=
  if s.cfg.cap < s.fLen.toNat then s.setFsm .seekSof0
  else if s.fLen = 0 then s.setFsm .crc0
  else (s.setDataIdx 0).setFsm .data

/-- State `Len1` (R117). -/
def parseLen1 (b : Byte) (s : State) : Result := .next (checkLength (s.setFLen (setHi8 s.fLen b)))

/-- The index step of state `Data` (R118). -/
def advanceData (s : State) : State :=
  if s.dataIdx + 1 = s.fLen then (s.setDataIdx (s.dataIdx + 1)).setFsm .crc0
  else (s.setDataIdx (s.dataIdx + 1)).setFsm .data

/-- State `Data` (R118). -/
def parseData (b : Byte) (s : State) : Result :=
  andThen (memWrite s.dataIdx.toNat b s) fun t => .next (advanceData t)

/-- State `Crc0` (R119). -/
def parseCrc0 (b : Byte) (s : State) : Result := .next ((s.setFCrc (setLo8 s.fCrc b)).setFsm .crc1)

/-- State `Crc1` (R120): the dispatch is in this same step. -/
def parseCrc1 (b : Byte) (s : State) : Result :=
  handle ((s.setFCrc (setHi8 s.fCrc b)).setFsm .seekSof0)

/-- The step of the reception agent (R110): exactly one of R111 to R120. -/
def receiveByte (b : Byte) (s : State) : Result :=
  match s.fsm with
  | .seekSof0 => parseSeekSof0 b s
  | .seekSof1 => parseSeekSof1 b s
  | .type => parseType b s
  | .seq0 => parseSeq0 b s
  | .seq1 => parseSeq1 b s
  | .len0 => parseLen0 b s
  | .len1 => parseLen1 b s
  | .data => parseData b s
  | .crc0 => parseCrc0 b s
  | .crc1 => parseCrc1 b s

/-- `RX <bytes>`: one `RX_BYTE` event per byte, in order (30_encoding.md R83). -/
def receiveBytes : List Byte → State → Result
  | [], s => .next s
  | b :: bs, s => andThen (receiveByte b s) (receiveBytes bs)

/-- `RX_BYTE(b)` (R110). -/
def execRxByte (b : Byte) (s : State) : Result := receiveByte b s

end Sys2Proof.Machine
end

