-- ==== Sys2Proof/Machine/InboundFrames.lean ====
section
/-! DEFINITION. The inbound frame rows: the bytes of the frame arrive one after another
(spec/30_encoding.md R70, R83), each through the parser. What becomes of the frame depends on the
parser's state at its first byte (spec/41_frame_deserializer.md R123); log 9. -/

namespace Sys2Proof.Machine

/-- A DATA frame arrives (R140, R141, R144 to R147). -/
def execDataInbound (seq : U16) (payload : List Byte) (crc : U16) (s : State) : Result :=
  receiveBytes (frameBytes s.cfg s.cfg.tData seq payload crc) s

/-- A FINISH frame arrives (R141, R142). -/
def execFinishInbound (seq : U16) (payload : List Byte) (crc : U16) (s : State) : Result :=
  receiveBytes (frameBytes s.cfg s.cfg.tFinish seq payload crc) s

/-- A frame of another type arrives (R141, R143). -/
def execOtherInbound (type : Byte) (seq : U16) (payload : List Byte) (crc : U16) (s : State) :
    Result :=
  receiveBytes (frameBytes s.cfg type seq payload crc) s

/-- The header of a frame whose length exceeds `CAP` arrives (R117). -/
def execOverlengthInbound (type : Byte) (seq len : U16) (s : State) : Result :=
  receiveBytes (headerBytes s.cfg type seq len) s

end Sys2Proof.Machine
end

