-- ==== Sys2Proof/Machine/PollDriver.lean ====
section
/-! DEFINITION. The Poll Driver (spec/43_poll_driver.md) and the meaning of `POLL`. -/

namespace Sys2Proof.Machine

/-- `EMIT_REQUEST(now)` (R163). -/
def emitRequest (now : Nat) (s : State) : State :=
  ((s.emit (.tx (requestFrame s.cfg s.expectedSequence))).setLastRequest (tickOf s.cfg now)).setReqDue
    false

/-- The condition of the initial or timed REQUEST (R162). -/
def requestDue (now : Nat) (s : State) : Bool :=
  s.reqDue || decide (s.cfg.retryPeriod ≤ elapsed s.cfg now s.lastRequestTime)

/-- Step 2 of `POLL` (R162). -/
def timedRequest (now : Nat) (s : State) : State :=
  if requestDue now s then emitRequest now s else s

/-- The advance and the pipelined REQUEST of step 3 (R165), with R160's test of `idle`. -/
def advanceSequence (now : Nat) (d : Decision) (s : State) : State :=
  if d.status = .ok ∧ d.seq = s.expectedSequence then
    if s.idle then s.setExpected (s.expectedSequence + 1)
    else emitRequest now (s.setExpected (s.expectedSequence + 1))
  else s

/-- Step 3 of `POLL`: the ACK (R164), the advance (R165), the clear (R166). -/
def dispatchDecision (now : Nat) (s : State) : State :=
  match s.pendingAck with
  | none => s
  | some d => clearDecision (advanceSequence now d (s.emit (.tx (ackFrame s.cfg d))))

/-- The atomic step of the polling agent (R160): the idle gate (R161), step 2, step 3. -/
def pollStep (now : Nat) (s : State) : State :=
  if s.idle then clearDecision s else dispatchDecision now (timedRequest now s)

/-- `POLL(now)` (R160). -/
def execPoll (now : Nat) (s : State) : Result := .next (pollStep now s)

end Sys2Proof.Machine
end

