-- ==== Sys2Proof/Machine/OutboundFrames.lean ====
section
/-! DEFINITION. The outbound frame rows (spec/30_encoding.md R76). The engine steps on exactly the
events of R80, so a transmission is no step of its own: the row runs as the event in whose step the
engine makes the transmission, with that event's test of whether it is made; log 10. -/

namespace Sys2Proof.Machine

/-- A REQUEST_DATA frame leaves the engine only in a `POLL(now)` step (R162, R163, R191): the row is
that step. -/
def execRequestDataOutbound (now : Nat) (s : State) : Result := .next (pollStep now s)

/-- An ACKNOWLEDGEMENT frame leaves the engine only in a `POLL(now)` step (R164, R192): the row is that
step. -/
def execAckOutbound (now : Nat) (s : State) : Result := .next (pollStep now s)

/-- An END frame leaves the engine only in a `SEND_END` step (R193): the row is that step. -/
def execEndOutbound (s : State) : Result := .next (emitEnd s)

end Sys2Proof.Machine
end

