-- ==== Sys2Proof/Machine/Reset.lean ====
section
/-! DEFINITION. The `RESET` event (spec/70_reset_and_hazards.md R230). -/

namespace Sys2Proof.Machine

/-- `RESET` (R230): the five writes of its pseudocode, no output. The fields it leaves unspecified
keep what they held, which no rule reads (R33); log 17. -/
def execReset (s : State) : Result :=
  .next (((((s.setExpected 0x0000).setIdle false).setPending none).setReqDue true).setFsm .seekSof0)

end Sys2Proof.Machine
end

