-- ==== Sys2Proof/Machine/Dispatch.lean ====
section
/-! DEFINITION. One arm for each row of spec/opcode_table.json. -/

namespace Sys2Proof.Machine

def exec (i : Instr) (s : State) : Host.Outcome State Fault Refusal :=
  match i with
  | .rxByte b => Sys2Proof.Machine.execRxByte b s
  | .poll now => Sys2Proof.Machine.execPoll now s
  | .setIdle1 => Sys2Proof.Machine.execSetIdle1 s
  | .setIdle0 => Sys2Proof.Machine.execSetIdle0 s
  | .sendEnd => Sys2Proof.Machine.execSendEnd s
  | .reset => Sys2Proof.Machine.execReset s
  | .dataInbound seq payload crc => Sys2Proof.Machine.execDataInbound seq payload crc s
  | .finishInbound seq payload crc => Sys2Proof.Machine.execFinishInbound seq payload crc s
  | .otherInbound type seq payload crc => Sys2Proof.Machine.execOtherInbound type seq payload crc s
  | .overlengthInbound type seq len => Sys2Proof.Machine.execOverlengthInbound type seq len s
  | .requestDataOutbound now => Sys2Proof.Machine.execRequestDataOutbound now s
  | .ackOutbound now => Sys2Proof.Machine.execAckOutbound now s
  | .endOutbound => Sys2Proof.Machine.execEndOutbound s

end Sys2Proof.Machine
end

