-- ==== Sys2Proof/Machine/Fetch.lean ====
section
/-! DEFINITION. Where the step takes its next transaction from, and where the host's interface
places one. -/

namespace Sys2Proof.Machine

/-- The instruction at the head of the input stream and the stream after it. -/
def fetch (s : State) : Except Reject (Instr × List Byte) := decode s.cfg s.inputs

/-- A configuration fixed before the first event (70_reset_and_hazards.md R233 item 1), TC1 of R9,
and a table word put at the head of the input stream. Log 11. -/
def placeWord (nbits w : Nat) (s : State) : State :=
  { s with cfg := Config.tc1, inputs := tableBytes nbits w ++ s.inputs }

end Sys2Proof.Machine
end

