-- ==== Sys2Proof/Machine/Step.lean ====
section
/-! DEFINITION. One step of the machine (spec/00_scope.md R10): the next transaction of the input
stream, run whole. -/

namespace Sys2Proof.Machine

/-- One step: a configuration that fails 00_scope.md R8 is refused; with no transaction pending
nothing happens; otherwise the head of the input stream is taken off and run. -/
def step (s : State) : Host.Outcome State Fault Refusal :=
  if s.cfg.wf then
    if s.inputs = [] then .next s
    else
      match fetch s with
      | .ok (i, rest) => exec i (s.setInputs rest)
      | .error why => .refused (.undecodable why)
  else .refused .illFormedConfig

/-- The state with a table word where `step` takes its next transaction (log 11). -/
def State.withFetchWord (s : State) (nbits w : Nat) : State := placeWord nbits w s

end Sys2Proof.Machine
end

