-- ==== Sys2Proof/Safety.lean ====
section
/-! DEFINITION. What counts as a safe state and how claims speak of runs and of a frame in the frame
registers. -/

namespace Sys2Proof.Machine

/-- The parser is past the length check of a frame. -/
def ParserState.inBody : ParserState → Bool
  | .data => true
  | .crc0 => true
  | .crc1 => true
  | _ => false

/-- The invariants of 10_state.md R32 (a) and (b), the buffer's canonical form within `CAP` (R50),
and a `last_request_time` of `TICK_W` bits (R25). -/
abbrev State.Inv (s : State) : Prop :=
  (s.fsm.inBody = true → s.fLen.toNat ≤ s.cfg.cap)
    ∧ (s.fsm = .data → s.dataIdx < s.fLen)
    ∧ s.buf.wf = true
    ∧ (∀ c ∈ s.buf, c.1 < s.cfg.cap)
    ∧ s.lastRequestTime < 2 ^ s.cfg.tickW

/-- A sequence of instructions, one after another, up to the first stop. -/
def execAll : List Instr → State → Result
  | [], s => .next s
  | i :: is, s => andThen (exec i s) (execAll is)

/-- The state in which the parser dispatches a frame that arrived whole from `SeekSOF0`
(R113 to R120): every frame register holds the frame's field, the buffer begins with the payload,
and the parser is back in `SeekSOF0`. A frame without payload leaves `data_idx` alone (R117). -/
def loadFrame (type : Byte) (seq : U16) (payload : List Byte) (crc : U16) (s : State) : State :=
  { s with
    fType := type
    fSeq := seq
    fLen := lengthField payload
    fCrc := crc
    dataIdx := if payload = [] then s.dataIdx else lengthField payload
    buf := s.buf.writeBytes 0 payload
    fsm := .seekSof0 }

end Sys2Proof.Machine
end

