-- ==== Sys2Proof/Certificates/Slice0/Obligations.lean ====
section
/-! DEFINITION. The statements for the provers. Each names in its docstring the rule of spec/ it
formalises, or says that it rests on a choice of the model and names the log entry. -/

open Sys2Proof Sys2Proof.Machine

/-! ### Reset, configuration, step -/

/-- R230: what `RESET` writes, from any state, and that it emits nothing. The fields R230 leaves
unspecified are not mentioned. -/
def Obligations.ResetStartsSession : Prop :=
  ∀ s : State, ∃ t, exec .reset s = .next t
    ∧ t.expectedSequence = 0x0000 ∧ t.idle = false ∧ t.pendingAck = none ∧ t.reqDue = true
    ∧ t.fsm = .seekSof0
    ∧ t.outputs = s.outputs ∧ t.inputs = s.inputs ∧ t.cfg = s.cfg

/-- The state after reset has the five values of R230 and meets the invariant. The invariant's
clauses about `lastRequestTime` and `buf` rest on log 5 and log 7. -/
def Obligations.ResetStateMeetsInvariant : Prop :=
  State.reset.Inv
    ∧ State.reset.expectedSequence = 0x0000 ∧ State.reset.idle = false
    ∧ State.reset.pendingAck = none ∧ State.reset.reqDue = true ∧ State.reset.fsm = .seekSof0
    ∧ State.reset.outputs = []

/-- R8: a configuration is refused exactly when one of the five conditions fails. -/
def Obligations.IllFormedConfigurationIsRefused : Prop :=
  ∀ s : State, step s = .refused .illFormedConfig ↔
    ¬ ((s.cfg.tRequestData ≠ s.cfg.tData ∧ s.cfg.tRequestData ≠ s.cfg.tAck
          ∧ s.cfg.tRequestData ≠ s.cfg.tFinish ∧ s.cfg.tRequestData ≠ s.cfg.tEnd
          ∧ s.cfg.tData ≠ s.cfg.tAck ∧ s.cfg.tData ≠ s.cfg.tFinish ∧ s.cfg.tData ≠ s.cfg.tEnd
          ∧ s.cfg.tAck ≠ s.cfg.tFinish ∧ s.cfg.tAck ≠ s.cfg.tEnd
          ∧ s.cfg.tFinish ≠ s.cfg.tEnd)
        ∧ (1 ≤ s.cfg.cap ∧ s.cfg.cap ≤ 65535)
        ∧ (1 ≤ s.cfg.dataLen ∧ s.cfg.dataLen ≤ s.cfg.cap)
        ∧ 1 ≤ s.cfg.tickW
        ∧ s.cfg.retryPeriod < 2 ^ s.cfg.tickW)

/-- A step takes the decoded transaction off the input stream and runs it; with nothing pending it
leaves the state as it is; bytes that are no transaction are refused by name. The stream is the
model's own (log 3). -/
def Obligations.StepRunsDecodedInstruction : Prop :=
  ∀ s : State, s.cfg.wf = true →
    (∀ i rest, decode s.cfg s.inputs = .ok (i, rest) →
        i.wf s.cfg = true ∧ step s = exec i { s with inputs := rest })
    ∧ (s.inputs = [] → step s = .next s)
    ∧ (∀ why, s.inputs ≠ [] → decode s.cfg s.inputs = .error why →
        step s = .refused (.undecodable why))

/-- R34: no step writes the configuration; and no meaning does. -/
def Obligations.ConfigurationIsConstant : Prop :=
  (∀ s t : State, step s = .next t → t.cfg = s.cfg)
    ∧ ∀ (i : Instr) (s t : State), exec i s = .next t → t.cfg = s.cfg ∧ t.inputs = s.inputs

/-! ### Encoding -/

/-- Every well-formed instruction, with every operand it admits, decodes from its own bytes, and the
decoder leaves the bytes after it. -/
def Obligations.DecodeOfEncode : Prop :=
  ∀ (c : Config) (i : Instr) (rest : List Byte), c.wf = true → i.wf c = true →
    decode c (encode c i ++ rest) = .ok (i, rest)

/-- Whatever the decoder accepts is well-formed, and its bytes are the ones the encoder writes: no
bit of an accepted transaction is dropped. -/
def Obligations.EncodeOfDecode : Prop :=
  ∀ (c : Config) (bytes rest : List Byte) (i : Instr), c.wf = true →
    decode c bytes = .ok (i, rest) → i.wf c = true ∧ encode c i ++ rest = bytes

/-- Four table words decode, under TC1 (log 11), to the instruction they stand for: `RX_BYTE 55`,
FIN(0), an inbound ACK(ok,0), a header of length 0x0192. The frame bytes are R70's; the port bytes
0x00 and 0x05, and with them the whole `RX_BYTE` word, are the model's own coding (log 3), since R80
gives an event no bit pattern. -/
def Obligations.SampleWordsDecode : Prop :=
  decodeTableWord 16 0x5500 = some (.rxByte 0x55)
    ∧ decodeTableWord 80 0x980A000000000455AA05 = some (.finishInbound 0 [] 0x980A)
    ∧ decodeTableWord 88 0xF7C000000100000355AA05
        = some (.otherInbound 0x03 0 [0x00] 0xF7C0)
    ∧ decodeTableWord 64 0x019200000255AA05 = some (.overlengthInbound 0x02 0 0x0192)

/-! ### The CRC engine -/

/-- R102: `CRC16` is `CRCUpdate` from 0xFFFF, with its corner case and its worked example. -/
def Obligations.Crc16IsUpdateFromInit : Prop :=
  (∀ bytes : List Byte, crc16 bytes = crcUpdate 0xFFFF bytes)
    ∧ crc16 [] = 0xFFFF
    ∧ crc16 [0x31, 0x32, 0x33, 0x34, 0x35, 0x36, 0x37, 0x38, 0x39] = 0x29B1

/-- R103: accumulation over disjoint buffers. -/
def Obligations.CrcIsIncremental : Prop :=
  ∀ (c : U16) (a b : List Byte), crcUpdate (crcUpdate c a) b = crcUpdate c (a ++ b)

/-- R14 ("CRC arithmetic is polynomial arithmetic over GF(2)") with R100's polynomial
`x^16 + x^12 + x^5 + 1`: the CRC is `crc * x^(8n) + message * x^16` modulo that polynomial, the
message's first byte and each byte's top bit at the highest power. -/
def Obligations.CrcIsPolynomialRemainder : Prop :=
  ∀ (c : U16) (bytes : List Byte), ∃ q : Polynomial (ZMod 2),
    (∑ k ∈ Finset.range 16,
        if (crcUpdate c bytes).getLsbD k then (Polynomial.X : Polynomial (ZMod 2)) ^ k else 0)
      + (Polynomial.X ^ 16 + Polynomial.X ^ 12 + Polynomial.X ^ 5 + 1) * q
    = Polynomial.X ^ (8 * bytes.length)
        * (∑ k ∈ Finset.range 16,
            if c.getLsbD k then (Polynomial.X : Polynomial (ZMod 2)) ^ k else 0)
      + Polynomial.X ^ 16
        * bytes.foldl
            (fun p b => p * Polynomial.X ^ 8
              + ∑ k ∈ Finset.range 8,
                  if b.getLsbD k then (Polynomial.X : Polynomial (ZMod 2)) ^ k else 0)
            0

/-- R105: (a) the CRC field of a serialized frame is the CRC of the bytes between the markers and
itself; (b) flipping any one bit of those bytes changes the recomputed CRC. -/
def Obligations.CrcDetectsSingleBitErrors : Prop :=
  (∀ (c : Config) (type : Byte) (seq : U16) (payload : List Byte), ∃ body : List Byte,
      serialize c type seq payload
          = [c.sof0, c.sof1] ++ body ++ [(crc16 body).setWidth 8, (crc16 body >>> 8).setWidth 8]
        ∧ body.length = 5 + payload.length
        ∧ crc16 body = frameCRC type seq (BitVec.ofNat 16 payload.length) payload)
    ∧ ∀ (body : List Byte) (n k : Nat) (b : Byte), body[n]? = some b → k < 8 →
        crc16 (body.set n (b ^^^ (1#8 <<< k))) ≠ crc16 body

/-! ### The framing parser -/

/-- R111 to R116 and R119: the states that only move the parser or fill a frame register. -/
def Obligations.ParserHeaderStates : Prop :=
  ∀ (b : Byte) (s : State),
    (s.fsm = .seekSof0 → exec (.rxByte b) s
        = .next { s with fsm := if b = s.cfg.sof0 then .seekSof1 else .seekSof0 })
    ∧ (s.fsm = .seekSof1 → exec (.rxByte b) s
        = .next { s with fsm := if b = s.cfg.sof1 then .type else .seekSof0 })
    ∧ (s.fsm = .type → exec (.rxByte b) s = .next { s with fType := b, fsm := .seq0 })
    ∧ (s.fsm = .seq0 → exec (.rxByte b) s
        = .next { s with fSeq := s.fSeq.extractLsb' 8 8 ++ b, fsm := .seq1 })
    ∧ (s.fsm = .seq1 → exec (.rxByte b) s
        = .next { s with fSeq := b ++ s.fSeq.extractLsb' 0 8, fsm := .len0 })
    ∧ (s.fsm = .len0 → exec (.rxByte b) s
        = .next { s with fLen := s.fLen.extractLsb' 8 8 ++ b, fsm := .len1 })
    ∧ (s.fsm = .crc0 → exec (.rxByte b) s
        = .next { s with fCrc := s.fCrc.extractLsb' 8 8 ++ b, fsm := .crc1 })

/-- R117: the declared-length check. -/
def Obligations.ParserLengthCheck : Prop :=
  ∀ (b : Byte) (s : State) (len : U16), s.fsm = .len1 → len = b ++ s.fLen.extractLsb' 0 8 →
    exec (.rxByte b) s
      = .next (if s.cfg.cap < len.toNat then { s with fLen := len, fsm := .seekSof0 }
          else if len.toNat = 0 then { s with fLen := len, fsm := .crc0 }
          else { s with fLen := len, dataIdx := 0, fsm := .data })

/-- R118: one payload byte goes to `Buf[data_idx]`, every other byte of the buffer reads as before,
and the parser leaves `Data` after `f_len` bytes. -/
def Obligations.ParserStoresPayloadByte : Prop :=
  ∀ (b : Byte) (s : State), s.Inv → s.fsm = .data → ∃ m : Memory,
    exec (.rxByte b) s
        = .next { s with
            buf := m
            dataIdx := s.dataIdx + 1
            fsm := if s.dataIdx.toNat + 1 = s.fLen.toNat then .crc0 else .data }
      ∧ ∀ a, m.read a = if a = s.dataIdx.toNat then b else s.buf.read a

/-- R120 with R140 to R148: the byte that completes a frame is the dispatch, whose first matching
disposition is the only one, in the same step. `payload` is `Buf[0 .. f_len - 1]`. -/
def Obligations.CompletedFrameIsDisposed : Prop :=
  ∀ (b : Byte) (s t : State) (payload : List Byte), s.Inv → s.fsm = .crc1 →
    payload = (List.range s.fLen.toNat).map s.buf.read →
    t = { s with fCrc := b ++ s.fCrc.extractLsb' 0 8, fsm := .seekSof0 } →
    exec (.rxByte b) s
      = .next
        (if crc16 ([s.fType, s.fSeq.extractLsb' 0 8, s.fSeq.extractLsb' 8 8,
              s.fLen.extractLsb' 0 8, s.fLen.extractLsb' 8 8] ++ payload) ≠ t.fCrc then
          { t with pendingAck := some ⟨.error, s.fSeq⟩ }
        else if s.fType = s.cfg.tFinish then
          { t with idle := true, pendingAck := none, outputs := s.outputs ++ [.indSet true] }
        else if s.fType ≠ s.cfg.tData then t
        else if s.fLen.toNat ≠ s.cfg.dataLen then { t with pendingAck := some ⟨.error, s.fSeq⟩ }
        else if s.fSeq = s.expectedSequence then
          { t with
            pendingAck := some ⟨.ok, s.expectedSequence⟩
            outputs := s.outputs ++ [.store (payload.drop 1), .indRecord] }
        else if s.fSeq.toNat < s.expectedSequence.toNat then
          { t with pendingAck := some ⟨.ok, s.fSeq⟩ }
        else { t with pendingAck := some ⟨.error, s.fSeq⟩ })

/-- R122 with its bound corrected (log 15): from any state that meets the invariant the parser is in
`SeekSOF0` within `CAP + 8` further bytes, and within `CAP + 7` unless it starts in `SeekSOF1`. -/
def Obligations.ParserAlwaysResynchronises : Prop :=
  ∀ (bytes : List Byte) (s : State), s.Inv →
    s.cfg.cap + (if s.fsm = .seekSof1 then 8 else 7) ≤ bytes.length →
    ∃ (n : Nat) (t : State), n ≤ s.cfg.cap + (if s.fsm = .seekSof1 then 8 else 7)
      ∧ receiveBytes (bytes.take n) s = .next t ∧ t.fsm = .seekSof0

/-- R122's bound as it is written, from any state. It fails from `SeekSOF1` (log 15). -/
def Obligations.ParserResyncBoundAsWritten : Prop :=
  ∀ (bytes : List Byte) (s : State), s.cfg.wf = true → s.Inv →
    s.cfg.cap + 7 ≤ bytes.length →
    ∃ (n : Nat) (t : State), n ≤ s.cfg.cap + 7
      ∧ receiveBytes (bytes.take n) s = .next t ∧ t.fsm = .seekSof0

/-- R112 and R237: after a stray `SOF0`, the two markers of the frame that follows leave the parser in
`SeekSOF0`, so that frame is missed. -/
def Obligations.StrayMarkerHidesFrame : Prop :=
  ∀ s : State, s.fsm = .seekSof0 → s.cfg.sof0 ≠ s.cfg.sof1 →
    execAll [.rxByte s.cfg.sof0, .rxByte s.cfg.sof0, .rxByte s.cfg.sof1] s = .next s

/-! ### Whole frames -/

/-- R123: after any noise that leaves the parser in `SeekSOF0`, a frame whose length is within `CAP`
is dispatched exactly once, with exactly its fields; the payload fills `Buf[0 .. L-1]` and every
other byte of the buffer reads as before. -/
def Obligations.FrameAfterNoiseIsDispatched : Prop :=
  ∀ (noise payload : List Byte) (type : Byte) (seq crc : U16) (s u : State),
    s.Inv → s.cfg.wf = true → payload.length ≤ s.cfg.cap →
    receiveBytes noise s = .next u → u.fsm = .seekSof0 →
    receiveBytes (noise ++ frameBytes s.cfg type seq payload crc) s
        = handle (loadFrame type seq payload crc u)
      ∧ (∀ a, (loadFrame type seq payload crc u).buf.read a
          = if h : a < payload.length then payload[a] else u.buf.read a)

/-- R195: a serialized frame fed back to the parser in `SeekSOF0` is one dispatch of exactly its
fields; its CRC check passes; and the engine's own REQUEST, ACK and END are then ignored. -/
def Obligations.SerializedFrameRoundTrip : Prop :=
  ∀ (payload : List Byte) (type : Byte) (seq : U16) (s u : State),
    s.Inv → s.cfg.wf = true → payload.length ≤ s.cfg.cap → s.fsm = .seekSof0 →
    u = loadFrame type seq payload (frameCRC type seq (BitVec.ofNat 16 payload.length) payload) s →
    receiveBytes (serialize s.cfg type seq payload) s = handle u
      ∧ u.fType = type ∧ u.fSeq = seq ∧ u.fLen.toNat = payload.length
      ∧ (List.range u.fLen.toNat).map u.buf.read = payload
      ∧ frameCRC u.fType u.fSeq u.fLen payload = u.fCrc
      ∧ (type = s.cfg.tRequestData ∨ type = s.cfg.tAck ∨ type = s.cfg.tEnd → handle u = .next u)

/-- R141 and R144 to R148 for a DATA frame that arrives while the parser is in `SeekSOF0`: a CRC
error, a length error, the accepted record, a duplicate or a gap, the first that holds. -/
def Obligations.DataFrameDisposition : Prop :=
  ∀ (payload : List Byte) (seq crc : U16) (s u : State),
    s.Inv → s.cfg.wf = true → payload.length ≤ s.cfg.cap → s.fsm = .seekSof0 →
    u = loadFrame s.cfg.tData seq payload crc s →
    exec (.dataInbound seq payload crc) s
      = .next
        (if frameCRC s.cfg.tData seq (BitVec.ofNat 16 payload.length) payload ≠ crc then
          { u with pendingAck := some ⟨.error, seq⟩ }
        else if payload.length ≠ s.cfg.dataLen then { u with pendingAck := some ⟨.error, seq⟩ }
        else if seq = s.expectedSequence then
          { u with
            pendingAck := some ⟨.ok, s.expectedSequence⟩
            outputs := s.outputs ++ [.store (payload.drop 1), .indRecord] }
        else if seq.toNat < s.expectedSequence.toNat then { u with pendingAck := some ⟨.ok, seq⟩ }
        else { u with pendingAck := some ⟨.error, seq⟩ })

/-- R141 and R142 for a FINISH frame that arrives while the parser is in `SeekSOF0`, whatever its
length and sequence. -/
def Obligations.FinishFrameDisposition : Prop :=
  ∀ (payload : List Byte) (seq crc : U16) (s u : State),
    s.Inv → s.cfg.wf = true → payload.length ≤ s.cfg.cap → s.fsm = .seekSof0 →
    u = loadFrame s.cfg.tFinish seq payload crc s →
    exec (.finishInbound seq payload crc) s
      = .next
        (if frameCRC s.cfg.tFinish seq (BitVec.ofNat 16 payload.length) payload ≠ crc then
          { u with pendingAck := some ⟨.error, seq⟩ }
        else { u with idle := true, pendingAck := none, outputs := s.outputs ++ [.indSet true] })

/-- R141 and R143 for a frame of any other type that arrives while the parser is in `SeekSOF0`. -/
def Obligations.OtherFrameDisposition : Prop :=
  ∀ (payload : List Byte) (type : Byte) (seq crc : U16) (s u : State),
    s.Inv → s.cfg.wf = true → payload.length ≤ s.cfg.cap → s.fsm = .seekSof0 →
    type ≠ s.cfg.tData → type ≠ s.cfg.tFinish →
    u = loadFrame type seq payload crc s →
    exec (.otherInbound type seq payload crc) s
      = .next
        (if frameCRC type seq (BitVec.ofNat 16 payload.length) payload ≠ crc then
          { u with pendingAck := some ⟨.error, seq⟩ }
        else u)

/-- R117 for a header that arrives while the parser is in `SeekSOF0` and whose length exceeds `CAP`:
three frame registers change, the buffer, the decision and the outputs do not, and the parser is
back in `SeekSOF0`. -/
def Obligations.OverlengthHeaderIsDropped : Prop :=
  ∀ (type : Byte) (seq len : U16) (s : State), s.fsm = .seekSof0 → s.cfg.cap < len.toNat →
    exec (.overlengthInbound type seq len) s
      = .next { s with fType := type, fSeq := seq, fLen := len }

/-- R83: an inbound frame row is one `RX_BYTE` event per byte, from any state, a stop included; the
row is the model's reading of the table (log 9). -/
def Obligations.InboundRowsAreByteEvents : Prop :=
  ∀ (s : State) (type : Byte) (seq crc len : U16) (payload : List Byte),
    exec (.dataInbound seq payload crc) s
        = execAll ((frameBytes s.cfg s.cfg.tData seq payload crc).map .rxByte) s
      ∧ exec (.finishInbound seq payload crc) s
        = execAll ((frameBytes s.cfg s.cfg.tFinish seq payload crc).map .rxByte) s
      ∧ exec (.otherInbound type seq payload crc) s
        = execAll ((frameBytes s.cfg type seq payload crc).map .rxByte) s
      ∧ exec (.overlengthInbound type seq len) s
        = execAll ((headerBytes s.cfg type seq len).map .rxByte) s

/-! ### The Poll Driver, Idle Control and the serializer -/

/-- R161: a poll while idle clears the decision and does nothing else. -/
def Obligations.PollWhileIdleIsSilent : Prop :=
  ∀ (now : Nat) (s : State), s.idle = true →
    exec (.poll now) s = .next { s with pendingAck := none }

/-- R160 and R162 to R166, R168: a poll while active. `due` is R162's condition with the modular
elapsed time, `advance` is R165's; the frames go out in R168's order, and everything not named is
unchanged. -/
def Obligations.PollWhileActive : Prop :=
  ∀ (now : Nat) (s : State) (due advance : Prop) [Decidable due] [Decidable advance],
    s.idle = false → now < 2 ^ s.cfg.tickW → s.lastRequestTime < 2 ^ s.cfg.tickW →
    (due ↔ s.reqDue = true ∨
      (s.cfg.retryPeriod : Int) ≤ ((now : Int) - (s.lastRequestTime : Int)) % 2 ^ s.cfg.tickW) →
    (advance ↔ s.pendingAck = some ⟨.ok, s.expectedSequence⟩) →
    exec (.poll now) s = .next { s with
      expectedSequence := if advance then s.expectedSequence + 1 else s.expectedSequence
      pendingAck := none
      lastRequestTime := if due ∨ advance then now else s.lastRequestTime
      reqDue := if due ∨ advance then false else s.reqDue
      outputs := s.outputs
        ++ (if due then [.tx (serialize s.cfg s.cfg.tRequestData s.expectedSequence [])] else [])
        ++ (match s.pendingAck with
            | none => []
            | some d => [.tx (serialize s.cfg s.cfg.tAck d.seq
                [match d.status with | .ok => 0x00 | .error => 0x01])])
        ++ (if advance then
              [.tx (serialize s.cfg s.cfg.tRequestData (s.expectedSequence + 1) [])] else []) }

/-- R169: outside `RESET`, `expected_sequence` changes only by one, modulo 2^16, and only in the step
that sends the ok ACK for its old value; so along a run without `RESET` it takes its values in order.
The rows of the outbound frames are the model's reading of the table (log 10). -/
def Obligations.SequenceAdvancesOnlyOnOkDispatch : Prop :=
  (∀ (i : Instr) (s t : State), i ≠ .reset → exec i s = .next t →
      t.expectedSequence ≠ s.expectedSequence →
      t.expectedSequence = s.expectedSequence + 1
        ∧ s.pendingAck = some ⟨.ok, s.expectedSequence⟩ ∧ s.idle = false ∧ t.pendingAck = none
        ∧ ∃ es, t.outputs = s.outputs ++ es
          ∧ Output.tx (serialize s.cfg s.cfg.tAck s.expectedSequence [0x00]) ∈ es)
    ∧ ∀ (is : List Instr) (s t : State), Instr.reset ∉ is → execAll is s = .next t →
        ∃ n ≤ is.length, t.expectedSequence = s.expectedSequence + BitVec.ofNat 16 n

/-- R180 to R182: `SET_IDLE`, from any state, a repeated setting included. -/
def Obligations.SetIdleEffects : Prop :=
  ∀ s : State,
    exec .setIdle1 s = .next { s with
        idle := true, pendingAck := none, outputs := s.outputs ++ [.indSet true] }
      ∧ exec .setIdle0 s = .next { s with
        idle := false, outputs := s.outputs ++ [.indSet false] }

/-- R193: `SEND_END` emits one END frame, idle or not, and writes no state. -/
def Obligations.SendEndEmitsOneFrame : Prop :=
  ∀ s : State,
    exec .sendEnd s = .next { s with
        outputs := s.outputs ++ [.tx (serialize s.cfg s.cfg.tEnd s.expectedSequence [])] }

/-- R193 for the END row: it is the `SEND_END` step. That a transmission row is the event that
transmits it is the model's reading of the table (log 10). -/
def Obligations.EndRowEmission : Prop :=
  ∀ s : State,
    exec .endOutbound s = exec .sendEnd s
    ∧ exec .endOutbound s = .next { s with
        outputs := s.outputs ++ [.tx (serialize s.cfg s.cfg.tEnd s.expectedSequence [])] }

/-- R161 to R163 and R191 for the REQUEST_DATA row: it is the `POLL` step, from every state; with no
decision pending the REQUEST goes out exactly when it is due. That a transmission row is the event
that transmits it is the model's reading of the table (log 10). -/
def Obligations.RequestRowEmission : Prop :=
  ∀ (now : Nat) (s : State),
    exec (.requestDataOutbound now) s = exec (.poll now) s
    ∧ (s.idle = true → exec (.requestDataOutbound now) s = .next { s with pendingAck := none })
    ∧ (s.idle = false → s.pendingAck = none →
        now < 2 ^ s.cfg.tickW → s.lastRequestTime < 2 ^ s.cfg.tickW →
        exec (.requestDataOutbound now) s
          = .next (if s.reqDue = true ∨ (s.cfg.retryPeriod : Int)
                ≤ ((now : Int) - (s.lastRequestTime : Int)) % 2 ^ s.cfg.tickW then
              { s with
                lastRequestTime := now
                reqDue := false
                outputs := s.outputs
                  ++ [.tx (serialize s.cfg s.cfg.tRequestData s.expectedSequence [])] }
            else s))

/-- R161, R164 to R166 and R192 for the ACK row: it is the `POLL` step, from every state; where no
timed REQUEST is due it sends the pending decision. That a transmission row is the event that
transmits it is the model's reading of the table (log 10). -/
def Obligations.AckRowDispatch : Prop :=
  ∀ (now : Nat) (s : State),
    exec (.ackOutbound now) s = exec (.poll now) s
    ∧ (s.idle = true → exec (.ackOutbound now) s = .next { s with pendingAck := none })
    ∧ (s.idle = false → s.reqDue = false →
        now < 2 ^ s.cfg.tickW → s.lastRequestTime < 2 ^ s.cfg.tickW →
        ((now : Int) - (s.lastRequestTime : Int)) % 2 ^ s.cfg.tickW < s.cfg.retryPeriod →
        (s.pendingAck = none → exec (.ackOutbound now) s = .next s)
        ∧ (∀ d : Decision, s.pendingAck = some d → d ≠ ⟨.ok, s.expectedSequence⟩ →
            exec (.ackOutbound now) s = .next { s with
              pendingAck := none
              outputs := s.outputs ++ [.tx (serialize s.cfg s.cfg.tAck d.seq
                [match d.status with | .ok => 0x00 | .error => 0x01])] })
        ∧ (s.pendingAck = some ⟨.ok, s.expectedSequence⟩ →
            exec (.ackOutbound now) s = .next { s with
              expectedSequence := s.expectedSequence + 1
              pendingAck := none
              lastRequestTime := now
              reqDue := false
              outputs := s.outputs
                ++ [.tx (serialize s.cfg s.cfg.tAck s.expectedSequence [0x00]),
                    .tx (serialize s.cfg s.cfg.tRequestData (s.expectedSequence + 1) [])] }))

/-- R190: the bytes of a serialized frame, one by one, and how many they are. -/
def Obligations.SerializedLayout : Prop :=
  ∀ (c : Config) (type : Byte) (seq len crc : U16) (payload : List Byte),
    len = BitVec.ofNat 16 payload.length →
    crc = crcUpdate (crcUpdate 0xFFFF [type, seq.extractLsb' 0 8, seq.extractLsb' 8 8,
      len.extractLsb' 0 8, len.extractLsb' 8 8]) payload →
    serialize c type seq payload
        = [c.sof0, c.sof1, type, seq.extractLsb' 0 8, seq.extractLsb' 8 8,
            len.extractLsb' 0 8, len.extractLsb' 8 8]
          ++ payload ++ [crc.extractLsb' 0 8, crc.extractLsb' 8 8]
      ∧ (serialize c type seq payload).length = 9 + payload.length

/-! ### Whole-machine rules -/

/-- R10 and R80: every run of table rows, from any state, is a run of the input events alone, a stop
included; a frame row adds no behaviour to them (log 9, log 10). -/
def Obligations.EveryRunIsARunOfEvents : Prop :=
  ∀ (is : List Instr) (c : Config), ∃ es : List Instr,
    (∀ e ∈ es, (∃ b, e = .rxByte b) ∨ (∃ now, e = .poll now) ∨ e = .setIdle1 ∨ e = .setIdle0
      ∨ e = .sendEnd ∨ e = .reset)
    ∧ ((∀ i ∈ is, i.wf c = true) → ∀ e ∈ es, e.wf c = true)
    ∧ ∀ s : State, s.cfg = c → execAll is s = execAll es s

/-- R32 (c) and (d): no decision is pending when a `POLL` ends idle, nor just after the idle-on
effect of `SET_IDLE(1)`. -/
def Obligations.IdleLeavesNoDecision : Prop :=
  ∀ s t : State,
    (∀ now, exec (.poll now) s = .next t → t.idle = true → t.pendingAck = none)
    ∧ (exec .setIdle1 s = .next t → t.idle = true ∧ t.pendingAck = none)

/-- R200, with the invariant that rules out states no run reaches (R32, R51): every instruction of the
table has a next state, and it only appends to the outputs. -/
def Obligations.EveryInstructionCompletes : Prop :=
  ∀ (i : Instr) (s : State), s.Inv → ∃ (t : State) (es : List Output),
    exec i s = .next t ∧ t.outputs = s.outputs ++ es

/-- R32 (a) and (b), R25 and R50: the invariant holds after every step from a state that meets it. -/
def Obligations.StepKeepsInvariant : Prop :=
  ∀ s t : State, s.Inv → step s = .next t → t.Inv

/-- R31: which fields each kind of step may write; the rest of the state is as before. The first six
clauses are the table's columns; the others say the same of the frame rows, which are steps of those
columns (the model's reading, log 9 and log 10). -/
def Obligations.WritersOfEachField : Prop :=
  ∀ s t : State,
    (∀ b, exec (.rxByte b) s = .next t →
        t = { s with
          idle := t.idle, pendingAck := t.pendingAck, fsm := t.fsm, fType := t.fType
          fSeq := t.fSeq, fLen := t.fLen, fCrc := t.fCrc, dataIdx := t.dataIdx, buf := t.buf
          outputs := t.outputs }
        ∧ (t.idle ≠ s.idle → s.fType = s.cfg.tFinish ∧ t.idle = true)
        ∧ (t.buf ≠ s.buf → s.fsm = .data)
        ∧ (t.pendingAck ≠ s.pendingAck → s.fsm = .crc1))
    ∧ (∀ now, exec (.poll now) s = .next t →
        t = { s with
          expectedSequence := t.expectedSequence, pendingAck := t.pendingAck
          lastRequestTime := t.lastRequestTime, reqDue := t.reqDue, outputs := t.outputs })
    ∧ (exec .setIdle1 s = .next t →
        t = { s with idle := t.idle, pendingAck := t.pendingAck, outputs := t.outputs })
    ∧ (exec .setIdle0 s = .next t → t = { s with idle := t.idle, outputs := t.outputs })
    ∧ (exec .sendEnd s = .next t → t = { s with outputs := t.outputs })
    ∧ (exec .reset s = .next t →
        t.outputs = s.outputs ∧ t.cfg = s.cfg ∧ t.inputs = s.inputs)
    ∧ (∀ i, ((∃ q p c, i = .dataInbound q p c) ∨ (∃ q p c, i = .finishInbound q p c)
          ∨ (∃ y q p c, i = .otherInbound y q p c) ∨ (∃ y q n, i = .overlengthInbound y q n)) →
        exec i s = .next t →
        t = { s with
          idle := t.idle, pendingAck := t.pendingAck, fsm := t.fsm, fType := t.fType
          fSeq := t.fSeq, fLen := t.fLen, fCrc := t.fCrc, dataIdx := t.dataIdx, buf := t.buf
          outputs := t.outputs })
    ∧ (∀ i now, (i = .requestDataOutbound now ∨ i = .ackOutbound now) → exec i s = .next t →
        t = { s with
          expectedSequence := t.expectedSequence, pendingAck := t.pendingAck
          lastRequestTime := t.lastRequestTime, reqDue := t.reqDue, outputs := t.outputs })
    ∧ (exec .endOutbound s = .next t → t = { s with outputs := t.outputs })

/-- R76 and R80, over the whole table: reception never transmits, only reception stores, every
transmitted frame is a REQUEST, an ACK with status 0x00 or 0x01, or an END, and nothing already
emitted is lost or repeated (R62). -/
def Obligations.OutputKindsByInstruction : Prop :=
  ∀ (i : Instr) (s t : State), exec i s = .next t → ∃ es, t.outputs = s.outputs ++ es
    ∧ (∀ f, Output.tx f ∈ es →
        ((∃ now, i = .poll now ∨ i = .requestDataOutbound now ∨ i = .ackOutbound now)
            ∧ ∃ q, f = serialize s.cfg s.cfg.tRequestData q []
              ∨ f = serialize s.cfg s.cfg.tAck q [0x00]
              ∨ f = serialize s.cfg s.cfg.tAck q [0x01])
          ∨ (i = .sendEnd ∨ i = .endOutbound)
            ∧ f = serialize s.cfg s.cfg.tEnd s.expectedSequence [])
    ∧ (∀ f, Output.store f ∈ es →
        (∃ b, i = .rxByte b) ∨ (∃ q p c, i = .dataInbound q p c)
          ∨ (∃ q p c, i = .finishInbound q p c) ∨ (∃ y q p c, i = .otherInbound y q p c)
          ∨ ∃ y q n, i = .overlengthInbound y q n)

/-- R161 and R183: while idle, no instruction but `SEND_END` and the END row transmits anything. -/
def Obligations.NothingIsSentWhileIdle : Prop :=
  ∀ (i : Instr) (s t : State), s.idle = true → exec i s = .next t →
    i ≠ .sendEnd → i ≠ .endOutbound →
    ∃ es, t.outputs = s.outputs ++ es ∧ ∀ f, Output.tx f ∉ es

/-- R32 (e), along any run without `RESET`: if the initial request is still due at the end, it was due
at the start and no REQUEST frame was emitted. -/
def Obligations.RequestDueMeansNoRequestYet : Prop :=
  ∀ (is : List Instr) (s t : State), s.cfg.wf = true → Instr.reset ∉ is →
    execAll is s = .next t → t.reqDue = true →
    s.reqDue = true ∧ ∃ es, t.outputs = s.outputs ++ es
      ∧ ∀ f, Output.tx f ∈ es → f[2]? ≠ some s.cfg.tRequestData

/-- R33: two machines that differ only in the fields R230 leaves unspecified, the initial request due
and the parser in `SeekSOF0`, answer every sequence of instructions with the same outputs and the
same specified fields. -/
def Obligations.UnspecifiedFieldsAreUnobservable : Prop :=
  ∀ (is : List Instr) (s s' : State), s.Inv → s'.Inv →
    s.reqDue = true → s.fsm = .seekSof0 →
    s' = { s with
      lastRequestTime := s'.lastRequestTime, fType := s'.fType, fSeq := s'.fSeq, fLen := s'.fLen
      fCrc := s'.fCrc, dataIdx := s'.dataIdx, buf := s'.buf } →
    ∃ t t', execAll is s = .next t ∧ execAll is s' = .next t'
      ∧ t'.outputs = t.outputs ∧ t'.expectedSequence = t.expectedSequence ∧ t'.idle = t.idle
      ∧ t'.pendingAck = t.pendingAck ∧ t'.reqDue = t.reqDue ∧ t'.fsm = t.fsm

/-! ### Hazards -/

/-- R235: an in-order DATA frame delivered twice before a poll is stored twice; after the poll that
advances the sequence, a third delivery stores nothing. -/
def Obligations.DoubleStorageBeforePoll : Prop :=
  ∀ (now : Nat) (payload : List Byte) (seq crc : U16) (s : State),
    s.Inv → s.cfg.wf = true → payload.length = s.cfg.dataLen → s.fsm = .seekSof0 →
    s.idle = false → seq = s.expectedSequence → seq ≠ 0xFFFF →
    crc = frameCRC s.cfg.tData seq (BitVec.ofNat 16 payload.length) payload →
    ∃ t u v,
      execAll [.dataInbound seq payload crc, .dataInbound seq payload crc] s = .next t
        ∧ t.outputs = s.outputs ++ [.store (payload.drop 1), .indRecord,
            .store (payload.drop 1), .indRecord]
        ∧ exec (.poll now) t = .next u ∧ u.expectedSequence = seq + 1
        ∧ exec (.dataInbound seq payload crc) u = .next v ∧ v.outputs = u.outputs
        ∧ v.pendingAck = some ⟨.ok, seq⟩

/-- R236: an accepted record whose ok decision a later corrupt frame overwrites before the poll is
stored, but the poll does not advance the sequence and sends no ok ACK. -/
def Obligations.OverwrittenOkDecisionIsLost : Prop :=
  ∀ (now : Nat) (payload payload' : List Byte) (seq seq' crc crc' : U16) (type : Byte) (s : State),
    s.Inv → s.cfg.wf = true → payload.length = s.cfg.dataLen → payload'.length ≤ s.cfg.cap →
    s.fsm = .seekSof0 → s.idle = false → s.reqDue = false → now = s.lastRequestTime →
    0 < s.cfg.retryPeriod →
    seq = s.expectedSequence →
    crc = frameCRC s.cfg.tData seq (BitVec.ofNat 16 payload.length) payload →
    crc' ≠ frameCRC type seq' (BitVec.ofNat 16 payload'.length) payload' →
    ∃ t, execAll [.dataInbound seq payload crc, .otherInbound type seq' payload' crc', .poll now] s
        = .next t
      ∧ t.expectedSequence = s.expectedSequence
      ∧ t.outputs = s.outputs ++ [.store (payload.drop 1), .indRecord,
          .tx (serialize s.cfg s.cfg.tAck seq' [0x01])]

/-- R242: a decision made while idle is sent after `SET_IDLE 0` if that comes before the next poll,
and is discarded if the poll comes first. The poll is one at which no timed REQUEST is due. -/
def Obligations.DecisionMadeWhileIdle : Prop :=
  ∀ (now : Nat) (payload : List Byte) (seq crc : U16) (s : State),
    s.Inv → s.cfg.wf = true → payload.length = s.cfg.dataLen → s.fsm = .seekSof0 →
    s.idle = true → s.reqDue = false → now = s.lastRequestTime → 0 < s.cfg.retryPeriod →
    seq = s.expectedSequence →
    crc = frameCRC s.cfg.tData seq (BitVec.ofNat 16 payload.length) payload →
    (∃ t, execAll [.dataInbound seq payload crc, .setIdle0, .poll now] s = .next t
        ∧ t.expectedSequence = seq + 1
        ∧ t.outputs = s.outputs ++ [.store (payload.drop 1), .indRecord, .indSet false,
            .tx (serialize s.cfg s.cfg.tAck seq [0x00]),
            .tx (serialize s.cfg s.cfg.tRequestData (seq + 1) [])])
    ∧ ∃ t, execAll [.dataInbound seq payload crc, .poll now, .setIdle0, .poll now] s = .next t
        ∧ t.expectedSequence = seq
        ∧ t.outputs = s.outputs ++ [.store (payload.drop 1), .indRecord, .indSet false]
end

