-- ==== Sys2Proof/Laws/Memory.lean ====
section
/-! SUPPORT. The laws of the payload buffer: a read after a write, and the canonical form that every
operation keeps. -/

namespace Sys2Proof.Machine

/-- Cells in rising order, the order part of `Memory.wf`. -/
abbrev Memory.Sorted (m : Memory) : Prop := m.Pairwise fun x y => x.1 < y.1

theorem Memory.wf_iff (m : Memory) :
    m.wf = true ↔ m.Sorted ∧ ∀ c ∈ m, c.2 ≠ unwritten := by
  simp [Memory.wf, Memory.Sorted]

theorem Memory.wf_nil : Memory.wf [] = true := by decide

theorem Memory.read_nil (a : Nat) : Memory.read [] a = unwritten := rfl

/-- An index below every listed one reads as unwritten. -/
theorem Memory.read_below {m : Memory} {a : Nat} (h : ∀ c ∈ m, a < c.1) :
    m.read a = unwritten := by
  induction m with
  | nil => rfl
  | cons c m ih =>
    obtain ⟨k, v⟩ := c
    have hk : a < k := h (k, v) (by simp)
    rw [Memory.read, if_neg (by omega)]
    exact ih fun c hc => h c (by simp [hc])

/-- Where a cell of the buffer after a write comes from. -/
theorem Memory.mem_write {m : Memory} {a : Nat} {b : Byte} {c : Host.Cell}
    (h : c ∈ m.write a b) : c ∈ m ∨ (c = (a, b) ∧ b ≠ unwritten) := by
  induction m with
  | nil =>
    simp only [Memory.write] at h
    split at h <;> simp_all
  | cons d m ih =>
    obtain ⟨k, v⟩ := d
    simp only [Memory.write] at h
    split at h
    · split at h <;> simp_all
      tauto
    · split at h
      · split at h <;> simp_all
        tauto
      · rcases List.mem_cons.mp h with h | h
        · simp [h]
        · rcases ih h with h | h <;> simp [h]

theorem Memory.sorted_write {m : Memory} (a : Nat) (b : Byte) (h : m.Sorted) :
    (m.write a b).Sorted := by
  induction m with
  | nil =>
    simp only [Memory.write]
    split <;> simp [Memory.Sorted]
  | cons d m ih =>
    obtain ⟨k, v⟩ := d
    obtain ⟨hk, hm⟩ := List.pairwise_cons.mp h
    simp only [Memory.write]
    split
    · split
      · exact h
      · refine List.pairwise_cons.mpr ⟨fun c hc => ?_, h⟩
        rcases List.mem_cons.mp hc with rfl | hc
        · assumption
        · exact lt_trans (by assumption) (hk c hc)
    · split
      · split
        · exact hm
        · exact List.pairwise_cons.mpr ⟨fun c hc => by subst a; exact hk c hc, hm⟩
      · refine List.pairwise_cons.mpr ⟨fun c hc => ?_, ih hm⟩
        rcases Memory.mem_write hc with hc | ⟨rfl, -⟩
        · exact hk c hc
        · show k < a
          omega

/-- A write keeps the canonical form. -/
theorem Memory.wf_write {m : Memory} (a : Nat) (b : Byte) (h : m.wf = true) :
    (m.write a b).wf = true := by
  rw [Memory.wf_iff] at h ⊢
  refine ⟨Memory.sorted_write a b h.1, fun c hc => ?_⟩
  rcases Memory.mem_write hc with hc | ⟨rfl, hb⟩
  · exact h.2 c hc
  · exact hb

/-- A read after a write: the written byte at its index, every other byte as before. -/
theorem Memory.read_write {m : Memory} (h : m.Sorted) (a : Nat) (b : Byte) (x : Nat) :
    (m.write a b).read x = if x = a then b else m.read x := by
  induction m with
  | nil =>
    simp only [Memory.write]
    split <;> by_cases hx : x = a <;> simp_all [Memory.read, eq_comm]
  | cons d m ih =>
    obtain ⟨k, v⟩ := d
    obtain ⟨hk, hm⟩ := List.pairwise_cons.mp h
    have hlow : a ≤ k → Memory.read m a = unwritten := fun hak =>
      Memory.read_below fun c hc => lt_of_le_of_lt hak (hk c hc)
    simp only [Memory.write]
    split
    · split
      · by_cases hx : x = a
        · have : ¬ k = x := by omega
          simp_all [Memory.read, le_of_lt]
        · simp [hx]
      · by_cases hx : x = a
        · simp [Memory.read, hx]
        · have : ¬ a = x := fun h => hx h.symm
          simp [Memory.read, hx, this]
    · split
      · subst a
        split
        · by_cases hx : x = k
          · simp_all
          · have : ¬ k = x := fun h => hx h.symm
            simp [Memory.read, hx, this]
        · by_cases hx : x = k
          · simp [Memory.read, hx]
          · have : ¬ k = x := fun h => hx h.symm
            simp [Memory.read, hx, this]
      · rw [Memory.read, ih hm]
        by_cases hx : x = a
        · rw [if_neg (show ¬ k = x by omega), if_pos hx, if_pos hx]
        · simp [Memory.read, hx]

/-- Indices below a bound stay below it. -/
theorem Memory.bound_write {m : Memory} {a n : Nat} {b : Byte} (h : ∀ c ∈ m, c.1 < n)
    (ha : a < n) : ∀ c ∈ m.write a b, c.1 < n := by
  intro c hc
  rcases Memory.mem_write hc with hc | ⟨rfl, -⟩
  · exact h c hc
  · exact ha

theorem Memory.wf_writeBytes {m : Memory} (i : Nat) (bs : List Byte) (h : m.wf = true) :
    (m.writeBytes i bs).wf = true := by
  induction bs generalizing m i with
  | nil => exact h
  | cons b bs ih => exact ih (i + 1) (Memory.wf_write i b h)

theorem Memory.length_readBytes (m : Memory) (i n : Nat) : (m.readBytes i n).length = n := by
  induction n generalizing i with
  | zero => rfl
  | succ n ih => simp [Memory.readBytes, ih]

/-- A read of `n` bytes, byte by byte. -/
theorem Memory.getElem?_readBytes (m : Memory) (i n k : Nat) (h : k < n) :
    (m.readBytes i n)[k]? = some (m.read (i + k)) := by
  induction n generalizing i k with
  | zero => omega
  | succ n ih =>
    cases k with
    | zero => simp [Memory.readBytes]
    | succ k =>
      simp only [Memory.readBytes, List.getElem?_cons_succ]
      rw [ih (i + 1) k (by omega)]
      congr 2
      omega

/-- Two buffers that agree on the bytes read give the same bytes. -/
theorem Memory.readBytes_congr {m m' : Memory} (i n : Nat)
    (h : ∀ k, i ≤ k → k < i + n → m.read k = m'.read k) :
    m.readBytes i n = m'.readBytes i n := by
  induction n generalizing i with
  | zero => rfl
  | succ n ih =>
    simp only [Memory.readBytes]
    rw [h i le_rfl (by omega), ih (i + 1) fun k h1 h2 => h k (by omega) (by omega)]

/-- A byte after a sequence is stored: the sequence's byte within it, every other as before. -/
theorem Memory.read_writeBytes {m : Memory} (h : m.Sorted) (i : Nat) (bs : List Byte) (x : Nat) :
    (m.writeBytes i bs).read x
      = if x < i then m.read x else (bs[x - i]?).getD (m.read x) := by
  induction bs generalizing m i with
  | nil => simp [Memory.writeBytes]
  | cons b bs ih =>
    rw [Memory.writeBytes, ih (Memory.sorted_write i b h), Memory.read_write h]
    by_cases hx : x < i
    · rw [if_pos (show x < i + 1 by omega), if_neg (show ¬ x = i by omega), if_pos hx]
    · by_cases hxi : x = i
      · subst x
        simp
      · have e : x - i = x - (i + 1) + 1 := by omega
        rw [if_neg (show ¬ x < i + 1 by omega), if_neg hxi, if_neg hx, e]
        simp

/-- The stored sequence reads back. -/
theorem Memory.readBytes_writeBytes {m : Memory} (h : m.Sorted) (i : Nat) (bs : List Byte) :
    (m.writeBytes i bs).readBytes i bs.length = bs := by
  apply List.ext_getElem?
  intro k
  by_cases hk : k < bs.length
  · rw [Memory.getElem?_readBytes _ _ _ _ hk, Memory.read_writeBytes h]
    simp [hk]
  · rw [List.getElem?_eq_none (by rw [Memory.length_readBytes]; omega),
      List.getElem?_eq_none (by omega)]

theorem Memory.bound_writeBytes {m : Memory} {i n : Nat} {bs : List Byte}
    (h : ∀ c ∈ m, c.1 < n) (hi : i + bs.length ≤ n) : ∀ c ∈ m.writeBytes i bs, c.1 < n := by
  induction bs generalizing m i with
  | nil => exact h
  | cons b bs ih =>
    rw [List.length_cons] at hi
    exact ih (Memory.bound_write h (by omega)) (by omega)

end Sys2Proof.Machine
end

