-- ==== Sys2Proof/Laws/State.lean ====
section
/-! SUPPORT. One lemma per field per update of State, each true by rfl. -/

namespace Sys2Proof.Machine

variable (s : State)

@[simp] theorem State.setExpected_cfg (v : U16) : (s.setExpected v).cfg = s.cfg := rfl
@[simp] theorem State.setExpected_expectedSequence (v : U16) : (s.setExpected v).expectedSequence = v := rfl
@[simp] theorem State.setExpected_idle (v : U16) : (s.setExpected v).idle = s.idle := rfl
@[simp] theorem State.setExpected_pendingAck (v : U16) : (s.setExpected v).pendingAck = s.pendingAck := rfl
@[simp] theorem State.setExpected_lastRequestTime (v : U16) : (s.setExpected v).lastRequestTime = s.lastRequestTime := rfl
@[simp] theorem State.setExpected_reqDue (v : U16) : (s.setExpected v).reqDue = s.reqDue := rfl
@[simp] theorem State.setExpected_fsm (v : U16) : (s.setExpected v).fsm = s.fsm := rfl
@[simp] theorem State.setExpected_fType (v : U16) : (s.setExpected v).fType = s.fType := rfl
@[simp] theorem State.setExpected_fSeq (v : U16) : (s.setExpected v).fSeq = s.fSeq := rfl
@[simp] theorem State.setExpected_fLen (v : U16) : (s.setExpected v).fLen = s.fLen := rfl
@[simp] theorem State.setExpected_fCrc (v : U16) : (s.setExpected v).fCrc = s.fCrc := rfl
@[simp] theorem State.setExpected_dataIdx (v : U16) : (s.setExpected v).dataIdx = s.dataIdx := rfl
@[simp] theorem State.setExpected_buf (v : U16) : (s.setExpected v).buf = s.buf := rfl
@[simp] theorem State.setExpected_inputs (v : U16) : (s.setExpected v).inputs = s.inputs := rfl
@[simp] theorem State.setExpected_outputs (v : U16) : (s.setExpected v).outputs = s.outputs := rfl

@[simp] theorem State.setIdle_cfg (v : Bool) : (s.setIdle v).cfg = s.cfg := rfl
@[simp] theorem State.setIdle_expectedSequence (v : Bool) : (s.setIdle v).expectedSequence = s.expectedSequence := rfl
@[simp] theorem State.setIdle_idle (v : Bool) : (s.setIdle v).idle = v := rfl
@[simp] theorem State.setIdle_pendingAck (v : Bool) : (s.setIdle v).pendingAck = s.pendingAck := rfl
@[simp] theorem State.setIdle_lastRequestTime (v : Bool) : (s.setIdle v).lastRequestTime = s.lastRequestTime := rfl
@[simp] theorem State.setIdle_reqDue (v : Bool) : (s.setIdle v).reqDue = s.reqDue := rfl
@[simp] theorem State.setIdle_fsm (v : Bool) : (s.setIdle v).fsm = s.fsm := rfl
@[simp] theorem State.setIdle_fType (v : Bool) : (s.setIdle v).fType = s.fType := rfl
@[simp] theorem State.setIdle_fSeq (v : Bool) : (s.setIdle v).fSeq = s.fSeq := rfl
@[simp] theorem State.setIdle_fLen (v : Bool) : (s.setIdle v).fLen = s.fLen := rfl
@[simp] theorem State.setIdle_fCrc (v : Bool) : (s.setIdle v).fCrc = s.fCrc := rfl
@[simp] theorem State.setIdle_dataIdx (v : Bool) : (s.setIdle v).dataIdx = s.dataIdx := rfl
@[simp] theorem State.setIdle_buf (v : Bool) : (s.setIdle v).buf = s.buf := rfl
@[simp] theorem State.setIdle_inputs (v : Bool) : (s.setIdle v).inputs = s.inputs := rfl
@[simp] theorem State.setIdle_outputs (v : Bool) : (s.setIdle v).outputs = s.outputs := rfl

@[simp] theorem State.setPending_cfg (v : Option Decision) : (s.setPending v).cfg = s.cfg := rfl
@[simp] theorem State.setPending_expectedSequence (v : Option Decision) : (s.setPending v).expectedSequence = s.expectedSequence := rfl
@[simp] theorem State.setPending_idle (v : Option Decision) : (s.setPending v).idle = s.idle := rfl
@[simp] theorem State.setPending_pendingAck (v : Option Decision) : (s.setPending v).pendingAck = v := rfl
@[simp] theorem State.setPending_lastRequestTime (v : Option Decision) : (s.setPending v).lastRequestTime = s.lastRequestTime := rfl
@[simp] theorem State.setPending_reqDue (v : Option Decision) : (s.setPending v).reqDue = s.reqDue := rfl
@[simp] theorem State.setPending_fsm (v : Option Decision) : (s.setPending v).fsm = s.fsm := rfl
@[simp] theorem State.setPending_fType (v : Option Decision) : (s.setPending v).fType = s.fType := rfl
@[simp] theorem State.setPending_fSeq (v : Option Decision) : (s.setPending v).fSeq = s.fSeq := rfl
@[simp] theorem State.setPending_fLen (v : Option Decision) : (s.setPending v).fLen = s.fLen := rfl
@[simp] theorem State.setPending_fCrc (v : Option Decision) : (s.setPending v).fCrc = s.fCrc := rfl
@[simp] theorem State.setPending_dataIdx (v : Option Decision) : (s.setPending v).dataIdx = s.dataIdx := rfl
@[simp] theorem State.setPending_buf (v : Option Decision) : (s.setPending v).buf = s.buf := rfl
@[simp] theorem State.setPending_inputs (v : Option Decision) : (s.setPending v).inputs = s.inputs := rfl
@[simp] theorem State.setPending_outputs (v : Option Decision) : (s.setPending v).outputs = s.outputs := rfl

@[simp] theorem State.setLastRequest_cfg (v : Nat) : (s.setLastRequest v).cfg = s.cfg := rfl
@[simp] theorem State.setLastRequest_expectedSequence (v : Nat) : (s.setLastRequest v).expectedSequence = s.expectedSequence := rfl
@[simp] theorem State.setLastRequest_idle (v : Nat) : (s.setLastRequest v).idle = s.idle := rfl
@[simp] theorem State.setLastRequest_pendingAck (v : Nat) : (s.setLastRequest v).pendingAck = s.pendingAck := rfl
@[simp] theorem State.setLastRequest_lastRequestTime (v : Nat) : (s.setLastRequest v).lastRequestTime = v := rfl
@[simp] theorem State.setLastRequest_reqDue (v : Nat) : (s.setLastRequest v).reqDue = s.reqDue := rfl
@[simp] theorem State.setLastRequest_fsm (v : Nat) : (s.setLastRequest v).fsm = s.fsm := rfl
@[simp] theorem State.setLastRequest_fType (v : Nat) : (s.setLastRequest v).fType = s.fType := rfl
@[simp] theorem State.setLastRequest_fSeq (v : Nat) : (s.setLastRequest v).fSeq = s.fSeq := rfl
@[simp] theorem State.setLastRequest_fLen (v : Nat) : (s.setLastRequest v).fLen = s.fLen := rfl
@[simp] theorem State.setLastRequest_fCrc (v : Nat) : (s.setLastRequest v).fCrc = s.fCrc := rfl
@[simp] theorem State.setLastRequest_dataIdx (v : Nat) : (s.setLastRequest v).dataIdx = s.dataIdx := rfl
@[simp] theorem State.setLastRequest_buf (v : Nat) : (s.setLastRequest v).buf = s.buf := rfl
@[simp] theorem State.setLastRequest_inputs (v : Nat) : (s.setLastRequest v).inputs = s.inputs := rfl
@[simp] theorem State.setLastRequest_outputs (v : Nat) : (s.setLastRequest v).outputs = s.outputs := rfl

@[simp] theorem State.setReqDue_cfg (v : Bool) : (s.setReqDue v).cfg = s.cfg := rfl
@[simp] theorem State.setReqDue_expectedSequence (v : Bool) : (s.setReqDue v).expectedSequence = s.expectedSequence := rfl
@[simp] theorem State.setReqDue_idle (v : Bool) : (s.setReqDue v).idle = s.idle := rfl
@[simp] theorem State.setReqDue_pendingAck (v : Bool) : (s.setReqDue v).pendingAck = s.pendingAck := rfl
@[simp] theorem State.setReqDue_lastRequestTime (v : Bool) : (s.setReqDue v).lastRequestTime = s.lastRequestTime := rfl
@[simp] theorem State.setReqDue_reqDue (v : Bool) : (s.setReqDue v).reqDue = v := rfl
@[simp] theorem State.setReqDue_fsm (v : Bool) : (s.setReqDue v).fsm = s.fsm := rfl
@[simp] theorem State.setReqDue_fType (v : Bool) : (s.setReqDue v).fType = s.fType := rfl
@[simp] theorem State.setReqDue_fSeq (v : Bool) : (s.setReqDue v).fSeq = s.fSeq := rfl
@[simp] theorem State.setReqDue_fLen (v : Bool) : (s.setReqDue v).fLen = s.fLen := rfl
@[simp] theorem State.setReqDue_fCrc (v : Bool) : (s.setReqDue v).fCrc = s.fCrc := rfl
@[simp] theorem State.setReqDue_dataIdx (v : Bool) : (s.setReqDue v).dataIdx = s.dataIdx := rfl
@[simp] theorem State.setReqDue_buf (v : Bool) : (s.setReqDue v).buf = s.buf := rfl
@[simp] theorem State.setReqDue_inputs (v : Bool) : (s.setReqDue v).inputs = s.inputs := rfl
@[simp] theorem State.setReqDue_outputs (v : Bool) : (s.setReqDue v).outputs = s.outputs := rfl

@[simp] theorem State.setFsm_cfg (v : ParserState) : (s.setFsm v).cfg = s.cfg := rfl
@[simp] theorem State.setFsm_expectedSequence (v : ParserState) : (s.setFsm v).expectedSequence = s.expectedSequence := rfl
@[simp] theorem State.setFsm_idle (v : ParserState) : (s.setFsm v).idle = s.idle := rfl
@[simp] theorem State.setFsm_pendingAck (v : ParserState) : (s.setFsm v).pendingAck = s.pendingAck := rfl
@[simp] theorem State.setFsm_lastRequestTime (v : ParserState) : (s.setFsm v).lastRequestTime = s.lastRequestTime := rfl
@[simp] theorem State.setFsm_reqDue (v : ParserState) : (s.setFsm v).reqDue = s.reqDue := rfl
@[simp] theorem State.setFsm_fsm (v : ParserState) : (s.setFsm v).fsm = v := rfl
@[simp] theorem State.setFsm_fType (v : ParserState) : (s.setFsm v).fType = s.fType := rfl
@[simp] theorem State.setFsm_fSeq (v : ParserState) : (s.setFsm v).fSeq = s.fSeq := rfl
@[simp] theorem State.setFsm_fLen (v : ParserState) : (s.setFsm v).fLen = s.fLen := rfl
@[simp] theorem State.setFsm_fCrc (v : ParserState) : (s.setFsm v).fCrc = s.fCrc := rfl
@[simp] theorem State.setFsm_dataIdx (v : ParserState) : (s.setFsm v).dataIdx = s.dataIdx := rfl
@[simp] theorem State.setFsm_buf (v : ParserState) : (s.setFsm v).buf = s.buf := rfl
@[simp] theorem State.setFsm_inputs (v : ParserState) : (s.setFsm v).inputs = s.inputs := rfl
@[simp] theorem State.setFsm_outputs (v : ParserState) : (s.setFsm v).outputs = s.outputs := rfl

@[simp] theorem State.setFType_cfg (v : Byte) : (s.setFType v).cfg = s.cfg := rfl
@[simp] theorem State.setFType_expectedSequence (v : Byte) : (s.setFType v).expectedSequence = s.expectedSequence := rfl
@[simp] theorem State.setFType_idle (v : Byte) : (s.setFType v).idle = s.idle := rfl
@[simp] theorem State.setFType_pendingAck (v : Byte) : (s.setFType v).pendingAck = s.pendingAck := rfl
@[simp] theorem State.setFType_lastRequestTime (v : Byte) : (s.setFType v).lastRequestTime = s.lastRequestTime := rfl
@[simp] theorem State.setFType_reqDue (v : Byte) : (s.setFType v).reqDue = s.reqDue := rfl
@[simp] theorem State.setFType_fsm (v : Byte) : (s.setFType v).fsm = s.fsm := rfl
@[simp] theorem State.setFType_fType (v : Byte) : (s.setFType v).fType = v := rfl
@[simp] theorem State.setFType_fSeq (v : Byte) : (s.setFType v).fSeq = s.fSeq := rfl
@[simp] theorem State.setFType_fLen (v : Byte) : (s.setFType v).fLen = s.fLen := rfl
@[simp] theorem State.setFType_fCrc (v : Byte) : (s.setFType v).fCrc = s.fCrc := rfl
@[simp] theorem State.setFType_dataIdx (v : Byte) : (s.setFType v).dataIdx = s.dataIdx := rfl
@[simp] theorem State.setFType_buf (v : Byte) : (s.setFType v).buf = s.buf := rfl
@[simp] theorem State.setFType_inputs (v : Byte) : (s.setFType v).inputs = s.inputs := rfl
@[simp] theorem State.setFType_outputs (v : Byte) : (s.setFType v).outputs = s.outputs := rfl

@[simp] theorem State.setFSeq_cfg (v : U16) : (s.setFSeq v).cfg = s.cfg := rfl
@[simp] theorem State.setFSeq_expectedSequence (v : U16) : (s.setFSeq v).expectedSequence = s.expectedSequence := rfl
@[simp] theorem State.setFSeq_idle (v : U16) : (s.setFSeq v).idle = s.idle := rfl
@[simp] theorem State.setFSeq_pendingAck (v : U16) : (s.setFSeq v).pendingAck = s.pendingAck := rfl
@[simp] theorem State.setFSeq_lastRequestTime (v : U16) : (s.setFSeq v).lastRequestTime = s.lastRequestTime := rfl
@[simp] theorem State.setFSeq_reqDue (v : U16) : (s.setFSeq v).reqDue = s.reqDue := rfl
@[simp] theorem State.setFSeq_fsm (v : U16) : (s.setFSeq v).fsm = s.fsm := rfl
@[simp] theorem State.setFSeq_fType (v : U16) : (s.setFSeq v).fType = s.fType := rfl
@[simp] theorem State.setFSeq_fSeq (v : U16) : (s.setFSeq v).fSeq = v := rfl
@[simp] theorem State.setFSeq_fLen (v : U16) : (s.setFSeq v).fLen = s.fLen := rfl
@[simp] theorem State.setFSeq_fCrc (v : U16) : (s.setFSeq v).fCrc = s.fCrc := rfl
@[simp] theorem State.setFSeq_dataIdx (v : U16) : (s.setFSeq v).dataIdx = s.dataIdx := rfl
@[simp] theorem State.setFSeq_buf (v : U16) : (s.setFSeq v).buf = s.buf := rfl
@[simp] theorem State.setFSeq_inputs (v : U16) : (s.setFSeq v).inputs = s.inputs := rfl
@[simp] theorem State.setFSeq_outputs (v : U16) : (s.setFSeq v).outputs = s.outputs := rfl

@[simp] theorem State.setFLen_cfg (v : U16) : (s.setFLen v).cfg = s.cfg := rfl
@[simp] theorem State.setFLen_expectedSequence (v : U16) : (s.setFLen v).expectedSequence = s.expectedSequence := rfl
@[simp] theorem State.setFLen_idle (v : U16) : (s.setFLen v).idle = s.idle := rfl
@[simp] theorem State.setFLen_pendingAck (v : U16) : (s.setFLen v).pendingAck = s.pendingAck := rfl
@[simp] theorem State.setFLen_lastRequestTime (v : U16) : (s.setFLen v).lastRequestTime = s.lastRequestTime := rfl
@[simp] theorem State.setFLen_reqDue (v : U16) : (s.setFLen v).reqDue = s.reqDue := rfl
@[simp] theorem State.setFLen_fsm (v : U16) : (s.setFLen v).fsm = s.fsm := rfl
@[simp] theorem State.setFLen_fType (v : U16) : (s.setFLen v).fType = s.fType := rfl
@[simp] theorem State.setFLen_fSeq (v : U16) : (s.setFLen v).fSeq = s.fSeq := rfl
@[simp] theorem State.setFLen_fLen (v : U16) : (s.setFLen v).fLen = v := rfl
@[simp] theorem State.setFLen_fCrc (v : U16) : (s.setFLen v).fCrc = s.fCrc := rfl
@[simp] theorem State.setFLen_dataIdx (v : U16) : (s.setFLen v).dataIdx = s.dataIdx := rfl
@[simp] theorem State.setFLen_buf (v : U16) : (s.setFLen v).buf = s.buf := rfl
@[simp] theorem State.setFLen_inputs (v : U16) : (s.setFLen v).inputs = s.inputs := rfl
@[simp] theorem State.setFLen_outputs (v : U16) : (s.setFLen v).outputs = s.outputs := rfl

@[simp] theorem State.setFCrc_cfg (v : U16) : (s.setFCrc v).cfg = s.cfg := rfl
@[simp] theorem State.setFCrc_expectedSequence (v : U16) : (s.setFCrc v).expectedSequence = s.expectedSequence := rfl
@[simp] theorem State.setFCrc_idle (v : U16) : (s.setFCrc v).idle = s.idle := rfl
@[simp] theorem State.setFCrc_pendingAck (v : U16) : (s.setFCrc v).pendingAck = s.pendingAck := rfl
@[simp] theorem State.setFCrc_lastRequestTime (v : U16) : (s.setFCrc v).lastRequestTime = s.lastRequestTime := rfl
@[simp] theorem State.setFCrc_reqDue (v : U16) : (s.setFCrc v).reqDue = s.reqDue := rfl
@[simp] theorem State.setFCrc_fsm (v : U16) : (s.setFCrc v).fsm = s.fsm := rfl
@[simp] theorem State.setFCrc_fType (v : U16) : (s.setFCrc v).fType = s.fType := rfl
@[simp] theorem State.setFCrc_fSeq (v : U16) : (s.setFCrc v).fSeq = s.fSeq := rfl
@[simp] theorem State.setFCrc_fLen (v : U16) : (s.setFCrc v).fLen = s.fLen := rfl
@[simp] theorem State.setFCrc_fCrc (v : U16) : (s.setFCrc v).fCrc = v := rfl
@[simp] theorem State.setFCrc_dataIdx (v : U16) : (s.setFCrc v).dataIdx = s.dataIdx := rfl
@[simp] theorem State.setFCrc_buf (v : U16) : (s.setFCrc v).buf = s.buf := rfl
@[simp] theorem State.setFCrc_inputs (v : U16) : (s.setFCrc v).inputs = s.inputs := rfl
@[simp] theorem State.setFCrc_outputs (v : U16) : (s.setFCrc v).outputs = s.outputs := rfl

@[simp] theorem State.setDataIdx_cfg (v : U16) : (s.setDataIdx v).cfg = s.cfg := rfl
@[simp] theorem State.setDataIdx_expectedSequence (v : U16) : (s.setDataIdx v).expectedSequence = s.expectedSequence := rfl
@[simp] theorem State.setDataIdx_idle (v : U16) : (s.setDataIdx v).idle = s.idle := rfl
@[simp] theorem State.setDataIdx_pendingAck (v : U16) : (s.setDataIdx v).pendingAck = s.pendingAck := rfl
@[simp] theorem State.setDataIdx_lastRequestTime (v : U16) : (s.setDataIdx v).lastRequestTime = s.lastRequestTime := rfl
@[simp] theorem State.setDataIdx_reqDue (v : U16) : (s.setDataIdx v).reqDue = s.reqDue := rfl
@[simp] theorem State.setDataIdx_fsm (v : U16) : (s.setDataIdx v).fsm = s.fsm := rfl
@[simp] theorem State.setDataIdx_fType (v : U16) : (s.setDataIdx v).fType = s.fType := rfl
@[simp] theorem State.setDataIdx_fSeq (v : U16) : (s.setDataIdx v).fSeq = s.fSeq := rfl
@[simp] theorem State.setDataIdx_fLen (v : U16) : (s.setDataIdx v).fLen = s.fLen := rfl
@[simp] theorem State.setDataIdx_fCrc (v : U16) : (s.setDataIdx v).fCrc = s.fCrc := rfl
@[simp] theorem State.setDataIdx_dataIdx (v : U16) : (s.setDataIdx v).dataIdx = v := rfl
@[simp] theorem State.setDataIdx_buf (v : U16) : (s.setDataIdx v).buf = s.buf := rfl
@[simp] theorem State.setDataIdx_inputs (v : U16) : (s.setDataIdx v).inputs = s.inputs := rfl
@[simp] theorem State.setDataIdx_outputs (v : U16) : (s.setDataIdx v).outputs = s.outputs := rfl

@[simp] theorem State.setBuf_cfg (v : Memory) : (s.setBuf v).cfg = s.cfg := rfl
@[simp] theorem State.setBuf_expectedSequence (v : Memory) : (s.setBuf v).expectedSequence = s.expectedSequence := rfl
@[simp] theorem State.setBuf_idle (v : Memory) : (s.setBuf v).idle = s.idle := rfl
@[simp] theorem State.setBuf_pendingAck (v : Memory) : (s.setBuf v).pendingAck = s.pendingAck := rfl
@[simp] theorem State.setBuf_lastRequestTime (v : Memory) : (s.setBuf v).lastRequestTime = s.lastRequestTime := rfl
@[simp] theorem State.setBuf_reqDue (v : Memory) : (s.setBuf v).reqDue = s.reqDue := rfl
@[simp] theorem State.setBuf_fsm (v : Memory) : (s.setBuf v).fsm = s.fsm := rfl
@[simp] theorem State.setBuf_fType (v : Memory) : (s.setBuf v).fType = s.fType := rfl
@[simp] theorem State.setBuf_fSeq (v : Memory) : (s.setBuf v).fSeq = s.fSeq := rfl
@[simp] theorem State.setBuf_fLen (v : Memory) : (s.setBuf v).fLen = s.fLen := rfl
@[simp] theorem State.setBuf_fCrc (v : Memory) : (s.setBuf v).fCrc = s.fCrc := rfl
@[simp] theorem State.setBuf_dataIdx (v : Memory) : (s.setBuf v).dataIdx = s.dataIdx := rfl
@[simp] theorem State.setBuf_buf (v : Memory) : (s.setBuf v).buf = v := rfl
@[simp] theorem State.setBuf_inputs (v : Memory) : (s.setBuf v).inputs = s.inputs := rfl
@[simp] theorem State.setBuf_outputs (v : Memory) : (s.setBuf v).outputs = s.outputs := rfl

@[simp] theorem State.setInputs_cfg (v : List Byte) : (s.setInputs v).cfg = s.cfg := rfl
@[simp] theorem State.setInputs_expectedSequence (v : List Byte) : (s.setInputs v).expectedSequence = s.expectedSequence := rfl
@[simp] theorem State.setInputs_idle (v : List Byte) : (s.setInputs v).idle = s.idle := rfl
@[simp] theorem State.setInputs_pendingAck (v : List Byte) : (s.setInputs v).pendingAck = s.pendingAck := rfl
@[simp] theorem State.setInputs_lastRequestTime (v : List Byte) : (s.setInputs v).lastRequestTime = s.lastRequestTime := rfl
@[simp] theorem State.setInputs_reqDue (v : List Byte) : (s.setInputs v).reqDue = s.reqDue := rfl
@[simp] theorem State.setInputs_fsm (v : List Byte) : (s.setInputs v).fsm = s.fsm := rfl
@[simp] theorem State.setInputs_fType (v : List Byte) : (s.setInputs v).fType = s.fType := rfl
@[simp] theorem State.setInputs_fSeq (v : List Byte) : (s.setInputs v).fSeq = s.fSeq := rfl
@[simp] theorem State.setInputs_fLen (v : List Byte) : (s.setInputs v).fLen = s.fLen := rfl
@[simp] theorem State.setInputs_fCrc (v : List Byte) : (s.setInputs v).fCrc = s.fCrc := rfl
@[simp] theorem State.setInputs_dataIdx (v : List Byte) : (s.setInputs v).dataIdx = s.dataIdx := rfl
@[simp] theorem State.setInputs_buf (v : List Byte) : (s.setInputs v).buf = s.buf := rfl
@[simp] theorem State.setInputs_inputs (v : List Byte) : (s.setInputs v).inputs = v := rfl
@[simp] theorem State.setInputs_outputs (v : List Byte) : (s.setInputs v).outputs = s.outputs := rfl

@[simp] theorem State.emit_cfg (e : Output) : (s.emit e).cfg = s.cfg := rfl
@[simp] theorem State.emit_expectedSequence (e : Output) : (s.emit e).expectedSequence = s.expectedSequence := rfl
@[simp] theorem State.emit_idle (e : Output) : (s.emit e).idle = s.idle := rfl
@[simp] theorem State.emit_pendingAck (e : Output) : (s.emit e).pendingAck = s.pendingAck := rfl
@[simp] theorem State.emit_lastRequestTime (e : Output) : (s.emit e).lastRequestTime = s.lastRequestTime := rfl
@[simp] theorem State.emit_reqDue (e : Output) : (s.emit e).reqDue = s.reqDue := rfl
@[simp] theorem State.emit_fsm (e : Output) : (s.emit e).fsm = s.fsm := rfl
@[simp] theorem State.emit_fType (e : Output) : (s.emit e).fType = s.fType := rfl
@[simp] theorem State.emit_fSeq (e : Output) : (s.emit e).fSeq = s.fSeq := rfl
@[simp] theorem State.emit_fLen (e : Output) : (s.emit e).fLen = s.fLen := rfl
@[simp] theorem State.emit_fCrc (e : Output) : (s.emit e).fCrc = s.fCrc := rfl
@[simp] theorem State.emit_dataIdx (e : Output) : (s.emit e).dataIdx = s.dataIdx := rfl
@[simp] theorem State.emit_buf (e : Output) : (s.emit e).buf = s.buf := rfl
@[simp] theorem State.emit_inputs (e : Output) : (s.emit e).inputs = s.inputs := rfl
@[simp] theorem State.emit_outputs (e : Output) : (s.emit e).outputs = s.outputs ++ [e] := rfl

@[simp] theorem andThen_next (f : State → Result) : andThen (.next s) f = f s := rfl
@[simp] theorem andThen_fault (e : Fault) (f : State → Result) :
    andThen (.fault e) f = .fault e := rfl
@[simp] theorem andThen_refused (e : Refusal) (f : State → Result) :
    andThen (.refused e) f = .refused e := rfl

end Sys2Proof.Machine
end

