-- ==== Sys2Proof/Laws/Ops.lean ====
section
/-! SUPPORT. What each shared operation over state, buffer and flags can do, said once. -/

namespace Sys2Proof.Machine

/-- `andThen` answers a next state only through one of its first part. -/
theorem andThen_eq_next {r : Result} {f : State → Result} {t : State} :
    andThen r f = .next t ↔ ∃ u, r = .next u ∧ f u = .next t := by
  cases r <;> simp [andThen]

/-- `MemWrite` answers a next state exactly within the buffer, and writes the one byte. -/
theorem memWrite_eq_next {i : Nat} {b : Byte} {s t : State} :
    memWrite i b s = .next t ↔ i < s.cfg.cap ∧ t = s.setBuf (s.buf.write i b) := by
  unfold memWrite
  split <;> simp_all [eq_comm]

theorem memWrite_within {i : Nat} {b : Byte} {s : State} (h : i < s.cfg.cap) :
    memWrite i b s = .next (s.setBuf (s.buf.write i b)) := if_pos h

/-- `MemRead` answers bytes exactly within the buffer: the bytes stored there. -/
theorem memRead_eq_ok {i n : Nat} {s : State} {bs : List Byte} :
    memRead i n s = .ok bs ↔ (n = 0 ∨ i + n ≤ s.cfg.cap) ∧ bs = s.buf.readBytes i n := by
  unfold memRead
  split <;> simp_all [eq_comm]

theorem memRead_within {i n : Nat} {s : State} (h : i + n ≤ s.cfg.cap) :
    memRead i n s = .ok (s.buf.readBytes i n) := if_pos (Or.inr h)

theorem memRead_nothing {i : Nat} {s : State} : memRead i 0 s = .ok [] := if_pos (Or.inl rfl)

theorem setDecision_eq (status : AckStatus) (seq : U16) (s : State) :
    setDecision status seq s = { s with pendingAck := some ⟨status, seq⟩ } := rfl

theorem clearDecision_eq (s : State) : clearDecision s = { s with pendingAck := none } := rfl

theorem idleOn_eq (s : State) :
    idleOn s = { s with
      idle := true, pendingAck := none, outputs := s.outputs ++ [.indSet true] } := rfl

theorem idleOff_eq (s : State) :
    idleOff s = { s with idle := false, outputs := s.outputs ++ [.indSet false] } := rfl

end Sys2Proof.Machine
end

