-- ==== Sys2Proof/Laws/PerInstr.lean ====
section
/-! SUPPORT. Statements made instruction by instruction: the port byte that opens a transaction. -/

namespace Sys2Proof.Laws

/-- The port byte of each row. -/
def portOf : Instr → Byte
  | .rxByte _ => portRx
  | .poll _ => portPoll
  | .setIdle1 => portIdle
  | .setIdle0 => portIdle
  | .sendEnd => portEnd
  | .reset => portReset
  | .dataInbound _ _ _ => portFrameIn
  | .finishInbound _ _ _ => portFrameIn
  | .otherInbound _ _ _ _ => portFrameIn
  | .overlengthInbound _ _ _ => portFrameIn
  | .requestDataOutbound _ => portFrameOut
  | .ackOutbound _ => portFrameOut
  | .endOutbound => portFrameOut

namespace EncodePort

/-- An instruction's transaction begins with its row's port byte, under every configuration. -/
def Statement (i : Instr) : Prop := ∀ c : Config, (encode c i).head? = some (portOf i)

theorem rxByte (b : Byte) : Statement (.rxByte b) := fun _ => rfl
theorem poll (now : Nat) : Statement (.poll now) := fun _ => rfl
theorem setIdle1 : Statement .setIdle1 := fun _ => rfl
theorem setIdle0 : Statement .setIdle0 := fun _ => rfl
theorem sendEnd : Statement .sendEnd := fun _ => rfl
theorem reset : Statement .reset := fun _ => rfl
theorem dataInbound (seq : U16) (payload : List Byte) (crc : U16) :
    Statement (.dataInbound seq payload crc) := fun _ => rfl
theorem finishInbound (seq : U16) (payload : List Byte) (crc : U16) :
    Statement (.finishInbound seq payload crc) := fun _ => rfl
theorem otherInbound (type : Byte) (seq : U16) (payload : List Byte) (crc : U16) :
    Statement (.otherInbound type seq payload crc) := fun _ => rfl
theorem overlengthInbound (type : Byte) (seq len : U16) :
    Statement (.overlengthInbound type seq len) := fun _ => rfl
theorem requestDataOutbound (now : Nat) : Statement (.requestDataOutbound now) := fun _ => rfl
theorem ackOutbound (now : Nat) : Statement (.ackOutbound now) := fun _ => rfl
theorem endOutbound : Statement .endOutbound := fun _ => rfl

end EncodePort

end Sys2Proof.Laws
end

