-- ==== Sys2Proof/Laws/Poll.lean ====
section
/-! SUPPORT. What the operations of the Poll Driver can do, said once. -/

namespace Sys2Proof.Machine

/-- A well-formed tick operand is its own tick. -/
theorem tickOf_eq {c : Config} {now : Nat} (h : now < 2 ^ c.tickW) : tickOf c now = now :=
  Nat.mod_eq_of_lt h

theorem tickOf_lt (c : Config) (now : Nat) : tickOf c now < 2 ^ c.tickW :=
  Nat.mod_lt _ (by positivity)

/-- The elapsed time is the difference of the ticks modulo the tick range (R14, R162). -/
theorem elapsed_eq {c : Config} {now last : Nat} (hn : now < 2 ^ c.tickW)
    (hl : last < 2 ^ c.tickW) :
    (elapsed c now last : Int) = ((now : Int) - (last : Int)) % 2 ^ c.tickW := by
  unfold elapsed
  rw [tickOf_eq hn, tickOf_eq hl, Int.natCast_emod, Nat.cast_add, Nat.cast_sub hl.le]
  push_cast
  rw [show (now : Int) + (2 ^ c.tickW - last) = now - last + 2 ^ c.tickW by ring,
    Int.add_emod_right]

theorem emitRequest_eq (now : Nat) (s : State) :
    emitRequest now s = { s with
      lastRequestTime := tickOf s.cfg now
      reqDue := false
      outputs := s.outputs ++ [.tx (requestFrame s.cfg s.expectedSequence)] } := rfl

/-- Step 3 of a poll that is not idle: nothing without a decision; else the ACK, the advance with its
REQUEST when the decision is ok for the expected sequence, and the clear. -/
theorem dispatchDecision_eq {now : Nat} {s : State} (h : s.idle = false) :
    dispatchDecision now s =
      match s.pendingAck with
      | none => s
      | some d =>
        if d = ⟨.ok, s.expectedSequence⟩ then { s with
          expectedSequence := s.expectedSequence + 1
          pendingAck := none
          lastRequestTime := tickOf s.cfg now
          reqDue := false
          outputs := s.outputs ++ [.tx (ackFrame s.cfg d),
            .tx (requestFrame s.cfg (s.expectedSequence + 1))] }
        else { s with pendingAck := none, outputs := s.outputs ++ [.tx (ackFrame s.cfg d)] } := by
  unfold dispatchDecision
  cases hp : s.pendingAck with
  | none => rfl
  | some d =>
    obtain ⟨st, sq⟩ := d
    by_cases hd : st = .ok ∧ sq = s.expectedSequence
    · obtain ⟨rfl, rfl⟩ := hd
      simp [advanceSequence, State.emit, h, emitRequest_eq, clearDecision, State.setExpected,
        State.setPending]
    · have : (⟨st, sq⟩ : Decision) ≠ ⟨.ok, s.expectedSequence⟩ := by simpa using hd
      simp [advanceSequence, State.emit, this, hd, clearDecision, State.setPending]

/-- A poll while idle only clears the decision (R161). -/
theorem pollStep_idle {now : Nat} {s : State} (h : s.idle = true) :
    pollStep now s = { s with pendingAck := none } := if_pos h

/-- A poll while active is step 2 and then step 3 (R160). -/
theorem pollStep_active {now : Nat} {s : State} (h : s.idle = false) :
    pollStep now s = dispatchDecision now (timedRequest now s) := if_neg (by simp [h])

end Sys2Proof.Machine
end

