-- ==== Sys2Proof/Laws/Wire.lean ====
section
/-! SUPPORT. Byte order: splitting and joining 16-bit fields, and little-endian numbers. -/

namespace Sys2Proof.Machine

theorem getLsbD_join16 (h l : Byte) (k : Nat) :
    (join16 h l).getLsbD k = if k < 8 then l.getLsbD k else h.getLsbD (k - 8) := by
  show BitVec.getLsbD (w := 8 + 8) (h ++ l) k = _
  rw [BitVec.getLsbD_append]

@[simp] theorem lo8_join16 (h l : Byte) : lo8 (join16 h l) = l := by
  refine BitVec.eq_of_getLsbD_eq fun k hk => ?_
  simp [lo8, getLsbD_join16, hk]

@[simp] theorem hi8_join16 (h l : Byte) : hi8 (join16 h l) = h := by
  refine BitVec.eq_of_getLsbD_eq fun k hk => ?_
  simp [hi8, getLsbD_join16, hk]

@[simp] theorem join16_hi8_lo8 (v : U16) : join16 (hi8 v) (lo8 v) = v := by
  refine BitVec.eq_of_getLsbD_eq fun k hk => ?_
  rw [getLsbD_join16]
  split
  · simp [lo8, *]
  · have h : k - 8 < 8 := by omega
    have e : 8 + (k - 8) = k := by omega
    simp [hi8, h, e]

theorem lo8_eq (v : U16) : lo8 v = v.extractLsb' 0 8 := by
  unfold lo8
  ext k hk
  simp

theorem hi8_eq (v : U16) : hi8 v = v.extractLsb' 8 8 := by
  unfold hi8
  ext k hk
  simp

theorem setHi8_setLo8 (v : U16) (l h : Byte) : setHi8 (setLo8 v l) h = join16 h l := by
  simp [setHi8, setLo8]

@[simp] theorem leBytes_length (n v : Nat) : (leBytes n v).length = n := by
  induction n generalizing v with
  | zero => rfl
  | succ n ih => simp [leBytes, ih]

/-- A number that fits its bytes reads back from them. -/
theorem ofLeBytes_leBytes (n v : Nat) (h : v < 256 ^ n) : ofLeBytes (leBytes n v) = v := by
  induction n generalizing v with
  | zero =>
    simp at h
    simp [leBytes, ofLeBytes, h]
  | succ n ih =>
    rw [pow_succ] at h
    rw [leBytes, ofLeBytes, ih (v / 256) (by omega), BitVec.toNat_ofNat]
    omega

/-- The bytes of the number that bytes stand for are those bytes. -/
theorem leBytes_ofLeBytes (bs : List Byte) : leBytes bs.length (ofLeBytes bs) = bs := by
  induction bs with
  | nil => rfl
  | cons b bs ih =>
    have hb := b.isLt
    rw [List.length_cons, leBytes, ofLeBytes]
    congr 1
    · apply BitVec.eq_of_toNat_eq
      rw [BitVec.toNat_ofNat]
      omega
    · rw [show (b.toNat + 256 * ofLeBytes bs) / 256 = ofLeBytes bs by omega, ih]

theorem lengthField_toNat {payload : List Byte} (h : payload.length < 2 ^ 16) :
    (lengthField payload).toNat = payload.length := by
  rw [lengthField, BitVec.toNat_ofNat, Nat.mod_eq_of_lt h]

@[simp] theorem frameHeader_length (type : Byte) (seq len : U16) :
    (frameHeader type seq len).length = 5 := rfl

end Sys2Proof.Machine
end

