-- ==== Sys2Proof/Laws/Reception.lean ====
section
/-! SUPPORT. What the parser and the Message Handler can do, said once: what a received byte leaves
alone, when it completes, and that it keeps the invariant. -/

namespace Sys2Proof.Machine

/-- What reception may change: the idle flag, the decision, the parser's registers and buffer, and
the end of the output list, where it never puts a `TX`. -/
def Received (s t : State) : Prop :=
  t = { s with
      idle := t.idle, pendingAck := t.pendingAck, fsm := t.fsm, fType := t.fType, fSeq := t.fSeq
      fLen := t.fLen, fCrc := t.fCrc, dataIdx := t.dataIdx, buf := t.buf, outputs := t.outputs }
    ∧ ∃ es, t.outputs = s.outputs ++ es ∧ ∀ f, Output.tx f ∉ es

theorem Received.refl (s : State) : Received s s := ⟨rfl, [], by simp⟩

theorem Received.trans {s t u : State} (h : Received s t) (k : Received t u) : Received s u := by
  obtain ⟨h1, es, h2, h3⟩ := h
  obtain ⟨k1, fs, k2, k3⟩ := k
  refine ⟨?_, es ++ fs, by rw [k2, h2, List.append_assoc], fun f hf => ?_⟩
  · rw [k1, h1]
  · rcases List.mem_append.mp hf with hf | hf
    · exact h3 f hf
    · exact k3 f hf

/-- The handler's accept step: within the buffer it stores the record and decides ok. -/
theorem acceptRecord_next {s : State} (h : s.cfg.dataLen ≤ s.cfg.cap) :
    acceptRecord s = .next { s with
      pendingAck := some ⟨.ok, s.expectedSequence⟩
      outputs := s.outputs
        ++ [.store (s.buf.readBytes 1 (s.cfg.dataLen - 1)), .indRecord] } := by
  unfold acceptRecord
  have e : memRead 1 (s.cfg.dataLen - 1) s = .ok (s.buf.readBytes 1 (s.cfg.dataLen - 1)) := by
    rw [memRead_eq_ok]
    exact ⟨by omega, rfl⟩
  rw [e]
  simp [setDecision, State.emit, State.setPending]

/-- Everything the handler can do with a frame that fits the buffer, in R140's order. -/
theorem handle_next {s : State} (h : s.fLen.toNat ≤ s.cfg.cap) :
    handle s = .next
      (if frameCRC s.fType s.fSeq s.fLen (s.buf.readBytes 0 s.fLen.toNat) ≠ s.fCrc then
        { s with pendingAck := some ⟨.error, s.fSeq⟩ }
      else if s.fType = s.cfg.tFinish then
        { s with idle := true, pendingAck := none, outputs := s.outputs ++ [.indSet true] }
      else if s.fType ≠ s.cfg.tData then s
      else if s.fLen.toNat ≠ s.cfg.dataLen then { s with pendingAck := some ⟨.error, s.fSeq⟩ }
      else if s.fSeq = s.expectedSequence then
        { s with
          pendingAck := some ⟨.ok, s.expectedSequence⟩
          outputs := s.outputs
            ++ [.store (s.buf.readBytes 1 (s.cfg.dataLen - 1)), .indRecord] }
      else if s.fSeq < s.expectedSequence then { s with pendingAck := some ⟨.ok, s.fSeq⟩ }
      else { s with pendingAck := some ⟨.error, s.fSeq⟩ }) := by
  unfold handle
  rw [memRead_within (by omega)]
  simp only [handleData, setDecision_eq, idleOn_eq]
  split_ifs <;> first | rfl | exact acceptRecord_next (by omega)

/-- The handler writes the decision, the idle flag and the outputs only. -/
theorem handle_frame {s t : State} (h : handle s = .next t) :
    t = { s with idle := t.idle, pendingAck := t.pendingAck, outputs := t.outputs }
      ∧ (∃ es, t.outputs = s.outputs ++ es ∧ ∀ f, Output.tx f ∉ es)
      ∧ (t.idle ≠ s.idle → s.fType = s.cfg.tFinish ∧ t.idle = true) := by
  unfold handle at h
  split at h
  · cases h
  · simp only [handleData, setDecision_eq, idleOn_eq] at h
    split_ifs at h
    · cases h; exact ⟨rfl, ⟨[], by simp⟩, by simp⟩
    · cases h; exact ⟨rfl, ⟨[.indSet true], by simp⟩, fun _ => ⟨by assumption, rfl⟩⟩
    · cases h; exact ⟨rfl, ⟨[], by simp⟩, by simp⟩
    · cases h; exact ⟨rfl, ⟨[], by simp⟩, by simp⟩
    · unfold acceptRecord at h
      split at h
      · cases h
      · rename_i record _
        cases h
        exact ⟨rfl, ⟨[.store record, .indRecord], by simp [State.emit, setDecision, State.setPending],
          by simp⟩, by simp [State.emit, setDecision, State.setPending]⟩
    · cases h; exact ⟨rfl, ⟨[], by simp⟩, by simp⟩
    · cases h; exact ⟨rfl, ⟨[], by simp⟩, by simp⟩

/-- A received byte changes what reception may change. -/
theorem receiveByte_received {b : Byte} {s t : State} (h : receiveByte b s = .next t) :
    Received s t := by
  unfold receiveByte at h
  split at h
  case h_8 =>
    simp only [parseData, andThen_eq_next, memWrite_eq_next] at h
    obtain ⟨u, ⟨-, rfl⟩, h⟩ := h
    cases h
    refine ⟨?_, [], ?_, by simp⟩ <;> · unfold advanceData; split_ifs <;> simp [State.setFsm,
      State.setDataIdx, State.setBuf]
  case h_10 =>
    obtain ⟨h1, h2, -⟩ := handle_frame h
    exact ⟨by rw [h1]; rfl, h2⟩
  case h_7 =>
    cases h
    refine ⟨?_, [], ?_, by simp⟩ <;> · unfold checkLength; split_ifs <;> simp [State.setFsm,
      State.setDataIdx, State.setFLen]
  all_goals
    cases h
    exact ⟨rfl, [], by simp⟩

/-- So does a received byte sequence. -/
theorem receiveBytes_received {bs : List Byte} {s t : State} (h : receiveBytes bs s = .next t) :
    Received s t := by
  induction bs generalizing s with
  | nil =>
    cases h
    exact Received.refl _
  | cons b bs ih =>
    obtain ⟨u, hu, h⟩ := andThen_eq_next.mp h
    exact (receiveByte_received hu).trans (ih h)

theorem receiveBytes_append (as bs : List Byte) (s : State) :
    receiveBytes (as ++ bs) s = andThen (receiveBytes as s) (receiveBytes bs) := by
  induction as generalizing s with
  | nil => rfl
  | cons a as ih =>
    simp only [List.cons_append, receiveBytes]
    cases receiveByte a s <;> simp [ih]

/-- From a state that meets the invariant every byte has a next state, which meets it too. -/
theorem receiveByte_keeps_inv {s : State} (b : Byte) (h : s.Inv) :
    ∃ t, receiveByte b s = .next t ∧ t.Inv := by
  obtain ⟨h1, h2, h3, h4, h5⟩ := h
  unfold receiveByte
  cases hf : s.fsm
  case data =>
    have hb : s.dataIdx.toNat < s.fLen.toNat := h2 hf
    have hc : s.fLen.toNat ≤ s.cfg.cap := h1 (by simp [hf, ParserState.inBody])
    simp only [parseData, memWrite_within (show s.dataIdx.toNat < s.cfg.cap by omega),
      andThen_next]
    refine ⟨_, rfl, ?_⟩
    have hn : (s.dataIdx + 1).toNat = s.dataIdx.toNat + 1 := by
      have := s.fLen.isLt
      rw [BitVec.toNat_add, show (1 : U16).toNat = 1 from rfl]
      omega
    unfold advanceData
    split_ifs with hd
    · refine ⟨fun _ => hc, by simp, Memory.wf_write _ _ h3, ?_, h5⟩
      exact Memory.bound_write h4 (by show _ < s.cfg.cap; omega)
    · refine ⟨fun _ => hc, fun _ => ?_, Memory.wf_write _ _ h3, ?_, h5⟩
      · simp only [State.setFsm_dataIdx, State.setDataIdx_dataIdx, State.setBuf_dataIdx,
          State.setFsm_fLen, State.setDataIdx_fLen, State.setBuf_fLen, BitVec.lt_def] at hd ⊢
        have : (s.dataIdx + 1).toNat ≠ s.fLen.toNat := fun e => hd (BitVec.eq_of_toNat_eq e)
        omega
      · exact Memory.bound_write h4 (by show _ < s.cfg.cap; omega)
  case crc1 =>
    have hc : s.fLen.toNat ≤ s.cfg.cap := h1 (by simp [hf, ParserState.inBody])
    simp only [parseCrc1]
    rw [handle_next (by simpa using hc)]
    refine ⟨_, rfl, ?_⟩
    have hs : ((s.setFCrc (setHi8 s.fCrc b)).setFsm .seekSof0).Inv :=
      ⟨by simp [ParserState.inBody], by simp, h3, h4, h5⟩
    split_ifs <;> exact hs
  case len1 =>
    refine ⟨_, rfl, ?_⟩
    unfold checkLength
    split_ifs with ha hb
    · exact ⟨by simp [ParserState.inBody], by simp, h3, h4, h5⟩
    · exact ⟨fun _ => by simpa using ha, by simp, h3, h4, h5⟩
    · refine ⟨fun _ => by simpa using ha, fun _ => ?_, h3, h4, h5⟩
      simp only [State.setFLen_fLen, State.setFsm_dataIdx, State.setDataIdx_dataIdx,
        State.setFsm_fLen, State.setDataIdx_fLen, BitVec.lt_def] at hb ⊢
      have : (setHi8 s.fLen b).toNat ≠ 0 := fun e => hb (BitVec.eq_of_toNat_eq e)
      simp
      omega
  case seekSof0 =>
    refine ⟨_, rfl, ?_⟩
    split_ifs <;> exact ⟨by simp [ParserState.inBody], by simp, h3, h4, h5⟩
  case seekSof1 =>
    refine ⟨_, rfl, ?_⟩
    split_ifs <;> exact ⟨by simp [ParserState.inBody], by simp, h3, h4, h5⟩
  case crc0 =>
    exact ⟨_, rfl, fun _ => h1 (by simp [hf, ParserState.inBody]), by simp, h3, h4, h5⟩
  all_goals exact ⟨_, rfl, by simp [ParserState.inBody], by simp, h3, h4, h5⟩

theorem receiveBytes_keeps_inv {s : State} (bs : List Byte) (h : s.Inv) :
    ∃ t, receiveBytes bs s = .next t ∧ t.Inv := by
  induction bs generalizing s with
  | nil => exact ⟨s, rfl, h⟩
  | cons b bs ih =>
    obtain ⟨u, hu, hi⟩ := receiveByte_keeps_inv b h
    rw [receiveBytes, hu]
    exact ih hi

end Sys2Proof.Machine
end

