-- ==== Sys2Proof/Tests/Slice0.lean ====
section
/-! SUPPORT. Tests. Every expected value is from spec/95_test_vectors.md (the vector is named) or is
written out by hand from spec/30_encoding.md R70. Configurations TC1 and TC2 are R9's. -/

set_option Elab.async false

namespace Sys2Proof.Tests

open Sys2Proof Sys2Proof.Machine

/-- The state after reset under TC2. -/
def base : State := { State.reset with cfg := Config.tc2 }

/-- The next state, if there is one. -/
def after : Result → Option State
  | .next s => some s
  | .fault _ => none
  | .refused _ => none

/-- The outputs after a step, if it has a next state. -/
def outs (r : Result) : Option (List Output) := (after r).map (·.outputs)

/-- The pending decision after a step, if it has a next state. -/
def pend (r : Result) : Option (Option Decision) := (after r).map (·.pendingAck)

/-- What a decoder read, or nothing. -/
def read (c : Config) (bytes : List Byte) : Option (Instr × List Byte) :=
  match decode c bytes with
  | .ok x => some x
  | .error _ => none

/-- Why a decoder refused, or nothing. -/
def why (c : Config) (bytes : List Byte) : Option Reject :=
  match decode c bytes with
  | .ok _ => none
  | .error r => some r

/-- Payload of D0. -/
def p0 : List Byte := [0x07, 0x11, 0x22, 0x33]

/-- REQ(0), V-PD-1. -/
def req0 : List Byte := [0xAA, 0x55, 0x01, 0x00, 0x00, 0x00, 0x00, 0x5D, 0xBB]

/-- REQ(1), V-PD-4. -/
def req1 : List Byte := [0xAA, 0x55, 0x01, 0x01, 0x00, 0x00, 0x00, 0xE9, 0xCD]

/-- ACK(ok,0), V-PD-4. -/
def ackOk0 : List Byte := [0xAA, 0x55, 0x03, 0x00, 0x00, 0x01, 0x00, 0x00, 0xC0, 0xF7]

/-! ### WellFormed: an ill-formed term for each check -/

theorem test_wf_test_configurations : Config.tc1.wf = true ∧ Config.tc2.wf = true := by decide
theorem test_wf_equal_markers_admitted : { Config.tc1 with sof1 := 0xAA }.wf = true := by decide
theorem test_wf_refuses_repeated_type_code : { Config.tc1 with tEnd := 0x01 }.wf = false := by
  decide
theorem test_wf_refuses_zero_cap : { Config.tc1 with cap := 0, dataLen := 0 }.wf = false := by
  decide
theorem test_wf_refuses_wide_cap : { Config.tc1 with cap := 65536 }.wf = false := by decide
theorem test_wf_refuses_zero_data_len : { Config.tc1 with dataLen := 0 }.wf = false := by decide
theorem test_wf_refuses_data_len_over_cap : { Config.tc1 with dataLen := 402 }.wf = false := by
  decide
theorem test_wf_refuses_zero_tick_width :
    { Config.tc1 with tickW := 0, retryPeriod := 0 }.wf = false := by decide
theorem test_wf_refuses_long_period :
    { Config.tc1 with tickW := 4, retryPeriod := 16 }.wf = false := by decide
theorem test_wf_refuses_wide_tick :
    (Instr.poll (2 ^ 32)).wf Config.tc2 = false
      ∧ (Instr.requestDataOutbound (2 ^ 32)).wf Config.tc2 = false
      ∧ (Instr.ackOutbound (2 ^ 32)).wf Config.tc2 = false := by decide
theorem test_wf_refuses_long_payload :
    (Instr.dataInbound 0 [0, 0, 0, 0, 0] 0).wf Config.tc2 = false
      ∧ (Instr.finishInbound 0 [0, 0, 0, 0, 0] 0).wf Config.tc2 = false
      ∧ (Instr.otherInbound 6 0 [0, 0, 0, 0, 0] 0).wf Config.tc2 = false := by decide
theorem test_wf_refuses_other_of_type_data :
    (Instr.otherInbound 0x02 0 [] 0).wf Config.tc2 = false := by decide
theorem test_wf_refuses_other_of_type_finish :
    (Instr.otherInbound 0x04 0 [] 0).wf Config.tc2 = false := by decide
theorem test_wf_refuses_overlength_within_cap :
    (Instr.overlengthInbound 0x02 0 4).wf Config.tc2 = false := by decide

/-! ### Decoding: the bytes of every constructor, written out

The frame bytes are R70's. The port byte, the tick's bytes and the outbound coding are the model's
own (log 3). -/

theorem test_decode_rx_byte : read Config.tc2 [0x00, 0xAA, 0x01] = some (.rxByte 0xAA, [0x01]) := by
  decide
theorem test_decode_poll :
    read Config.tc2 [0x01, 0x14, 0x02, 0x00, 0x80] = some (.poll 0x80000214, []) := by decide
theorem test_decode_set_idle_1 : read Config.tc2 [0x02, 0x01] = some (.setIdle1, []) := by decide
theorem test_decode_set_idle_0 : read Config.tc2 [0x02, 0x00] = some (.setIdle0, []) := by decide
theorem test_decode_send_end : read Config.tc2 [0x03] = some (.sendEnd, []) := by decide
theorem test_decode_reset : read Config.tc2 [0x04, 0x03] = some (.reset, [0x03]) := by decide
/-- The frame of V-MH-11: sequence 0x0102, so the order of its bytes shows. -/
theorem test_decode_data_inbound :
    read Config.tc2 [0x05, 0xAA, 0x55, 0x02, 0x02, 0x01, 0x04, 0x00, 0x07, 0x11, 0x22, 0x33, 0xB9,
        0xAC]
      = some (.dataInbound 0x0102 p0 0xACB9, []) := by decide
/-- FIN(7). -/
theorem test_decode_finish_inbound :
    read Config.tc2 [0x05, 0xAA, 0x55, 0x04, 0x07, 0x00, 0x00, 0x00, 0x27, 0xC9]
      = some (.finishInbound 7 [] 0xC927, []) := by decide
/-- The inbound ACK(ok,0) of V-MH-9. -/
theorem test_decode_other_inbound :
    read Config.tc2 [0x05, 0xAA, 0x55, 0x03, 0x00, 0x00, 0x01, 0x00, 0x00, 0xC0, 0xF7]
      = some (.otherInbound 0x03 0 [0x00] 0xF7C0, []) := by decide
/-- The header of V-PAR-5, a length of 5 over a `CAP` of 4. -/
theorem test_decode_overlength_inbound :
    read Config.tc2 [0x05, 0xAA, 0x55, 0x02, 0x00, 0x00, 0x05, 0x00, 0x07]
      = some (.overlengthInbound 0x02 0 5, [0x07]) := by decide
theorem test_decode_request_outbound :
    read Config.tc2 [0x06, 0x01, 0x07, 0x00, 0x00, 0x00] = some (.requestDataOutbound 7, []) := by
  decide
theorem test_decode_ack_outbound :
    read Config.tc2 [0x06, 0x03, 0x00, 0x01, 0x00, 0x00] = some (.ackOutbound 256, []) := by decide
theorem test_decode_end_outbound : read Config.tc2 [0x06, 0x05] = some (.endOutbound, []) := by
  decide

theorem test_reject_empty : why Config.tc2 [] = some .noTransaction := by decide
theorem test_reject_port : why Config.tc2 [0x07] = some .unknownPort := by decide
theorem test_reject_truncated :
    why Config.tc2 [0x01, 0x00, 0x00, 0x00] = some .truncated
      ∧ why Config.tc2 [0x05, 0xAA, 0x55, 0x04, 0, 0, 0, 0, 0x0A] = some .truncated := by decide
theorem test_reject_idle_value : why Config.tc2 [0x02, 0x02] = some .badIdleValue := by decide
theorem test_reject_wide_tick :
    why { Config.tc2 with tickW := 12 } [0x01, 0x00, 0x10] = some .tickTooWide := by decide
theorem test_reject_marker :
    why Config.tc2 [0x05, 0xAA, 0xAA, 0x04, 0, 0, 0, 0, 0x0A, 0x98] = some .badMarker := by decide
theorem test_reject_not_transmitted : why Config.tc2 [0x06, 0x02] = some .notTransmitted := by decide

/-! ### One step each -/

/-- V-PAR-8: a marker byte in `Data` is stored as data. -/
theorem test_rx_byte_marker_in_data :
    (after (exec (.rxByte 0xAA)
        { base with fsm := .data, fLen := 4, dataIdx := 1, buf := [(0, 7)] })).map
      (fun s => (s.fsm, s.dataIdx, s.buf)) = some (.data, 2, [(0, 7), (1, 0xAA)]) := by decide
/-- V-PAR-1, its last row, and V-MH-1. -/
theorem test_rx_byte_dispatch :
    outs (exec (.rxByte 0x9B)
        { base with fsm := .crc1, fType := 2, fLen := 4, fCrc := 0x007E,
                    buf := [(0, 7), (1, 0x11), (2, 0x22), (3, 0x33)] })
      = some [.store [0x11, 0x22, 0x33], .indRecord] := by decide +kernel

/-- V-PD-6: all three frames, in order. -/
theorem test_poll_three_frames :
    outs (exec (.poll 20) { base with pendingAck := some ⟨.ok, 0⟩, reqDue := false })
      = some [.tx req0, .tx ackOk0, .tx req1] := by decide +kernel
/-- V-PD-8: sequence wrap, and an elapsed time of 19 across the tick's wrap. -/
theorem test_poll_wraps :
    (after (exec (.poll 3) { base with expectedSequence := 0xFFFF
                                       pendingAck := some ⟨.ok, 0xFFFF⟩
                                       lastRequestTime := 0xFFFFFFF0, reqDue := false })).map
      (fun s => (s.expectedSequence, s.lastRequestTime, s.outputs))
      = some (0, 3, [.tx [0xAA, 0x55, 0x03, 0xFF, 0xFF, 0x01, 0x00, 0x00, 0xCC, 0xE6], .tx req0]) := by
  decide +kernel

/-- V-IDLE-1. -/
theorem test_set_idle_1 :
    (after (exec .setIdle1 { base with pendingAck := some ⟨.ok, 4⟩ })).map
      (fun s => (s.idle, s.pendingAck, s.outputs)) = some (true, none, [.indSet true]) := by decide
/-- V-IDLE-2, with a decision that idle-off leaves alone (V-IDLE-6). -/
theorem test_set_idle_0 :
    (after (exec .setIdle0 { base with idle := true, pendingAck := some ⟨.ok, 0⟩ })).map
      (fun s => (s.idle, s.pendingAck, s.outputs))
      = some (false, some ⟨.ok, 0⟩, [.indSet false]) := by decide
/-- V-SER-3 and V-SER-4. -/
theorem test_send_end :
    outs (exec .sendEnd { base with idle := true, expectedSequence := 1 })
      = some [.tx [0xAA, 0x55, 0x05, 0x01, 0x00, 0x00, 0x00, 0xEF, 0x44]] := by decide +kernel
/-- V-RST-1, from a state in the middle of a frame. -/
theorem test_reset :
    (after (exec .reset { base with expectedSequence := 9, idle := true, reqDue := false,
                                    pendingAck := some ⟨.error, 3⟩, fsm := .seq1 })).map
      (fun s => (s.expectedSequence, s.idle, s.pendingAck, s.reqDue, s.fsm))
      = some (0, false, none, true, .seekSof0) := by decide

/-- V-MH-1. -/
theorem test_data_inbound_accepted :
    outs (exec (.dataInbound 0 p0 0x9B7E) base)
      = some [.store [0x11, 0x22, 0x33], .indRecord] := by decide +kernel
/-- V-MH-12: the sequence comparison is unsigned. -/
theorem test_data_inbound_gap :
    pend (exec (.dataInbound 0xFFFF [0x0A, 0xA0, 0xB0, 0xC0] 0xFBFC) base)
      = some (some ⟨.error, 0xFFFF⟩) := by decide +kernel
/-- V-MH-15. -/
theorem test_finish_inbound :
    (after (exec (.finishInbound 0 [] 0x980A) { base with pendingAck := some ⟨.ok, 0⟩ })).map
      (fun s => (s.idle, s.pendingAck, s.outputs)) = some (true, none, [.indSet true]) := by
  decide +kernel
/-- V-MH-7: a corrupt FINISH is a CRC error. -/
theorem test_finish_inbound_corrupt :
    (after (exec (.finishInbound 7 [] 0x3627) base)).map (fun s => (s.idle, s.pendingAck))
      = some (false, some ⟨.error, 7⟩) := by decide +kernel
/-- V-MH-9. -/
theorem test_other_inbound_ignored :
    pend (exec (.otherInbound 0x03 0 [0x00] 0xF7C0) { base with pendingAck := some ⟨.ok, 5⟩ })
      = some (some ⟨.ok, 5⟩) := by decide +kernel
/-- V-PAR-5. -/
theorem test_overlength_inbound_dropped :
    (after (exec (.overlengthInbound 0x02 0 5) { base with pendingAck := some ⟨.ok, 5⟩ })).map
      (fun s => (s.fsm, s.pendingAck, s.outputs)) = some (.seekSof0, some ⟨.ok, 5⟩, []) := by decide
/-- V-PD-1. -/
theorem test_request_outbound :
    (after (exec (.requestDataOutbound 7) base)).map
      (fun s => (s.lastRequestTime, s.reqDue, s.outputs)) = some (7, false, [.tx req0]) := by
  decide +kernel
/-- V-PD-2: one tick before the period's end no REQUEST leaves the engine. -/
theorem test_request_outbound_not_due :
    outs (exec (.requestDataOutbound 19) { base with reqDue := false }) = some [] := by
  decide +kernel
/-- V-PD-4. -/
theorem test_ack_outbound :
    (after (exec (.ackOutbound 1)
        { base with pendingAck := some ⟨.ok, 0⟩, reqDue := false })).map
      (fun s => (s.expectedSequence, s.lastRequestTime, s.pendingAck, s.outputs))
      = some (1, 1, none, [.tx ackOk0, .tx req1]) := by decide +kernel
/-- V-PD-6: the REQUEST that is due goes out before the ACK. -/
theorem test_ack_outbound_at_timeout :
    outs (exec (.ackOutbound 20) { base with pendingAck := some ⟨.ok, 0⟩, reqDue := false })
      = some [.tx req0, .tx ackOk0, .tx req1] := by decide +kernel
/-- V-SER-3. -/
theorem test_end_outbound :
    outs (exec .endOutbound base)
      = some [.tx [0xAA, 0x55, 0x05, 0x00, 0x00, 0x00, 0x00, 0x5B, 0x32]] := by decide +kernel

/-- V-CRC-2, V-CRC-5, V-CRC-8 and V-CRC-11. -/
theorem test_crc_vectors :
    crc16 [0x31, 0x32, 0x33, 0x34, 0x35, 0x36, 0x37, 0x38, 0x39] = 0x29B1
      ∧ crc16 [0x00, 0x00] = 0x1D0F ∧ crcUpdate 0 [0x00] = 0
      ∧ frameCRC 0x04 0x0007 0 [] = 0xC927 := by decide +kernel

/-- The parser codes of R81. -/
theorem test_parser_codes :
    ParserState.seekSof0.code = 0 ∧ ParserState.type.code = 2 ∧ ParserState.data.code = 7
      ∧ ParserState.crc1.code = 9 := by decide

/-- The interface runs a table word as the first instruction after reset (log 11). -/
theorem test_with_fetch_word :
    (after (step (State.reset.withFetchWord 16 0x0002))).map (·.outputs)
      = some [.indSet false] := by decide +kernel

/-! ### The hypotheses of every statement are met -/

/-- A state in the middle of D0's payload, one byte before its end. -/
def inData : State :=
  { base with fsm := .data, fType := 2, fLen := 4, dataIdx := 3
              buf := [(0, 0x07), (1, 0x11), (2, 0x22)] }

/-- A state one byte before a frame's dispatch. -/
def atCrc1 (type : Byte) (seq len : U16) (crc0 : U16) (payload : List Byte) : State :=
  { base with fsm := .crc1, fType := type, fSeq := seq, fLen := len, dataIdx := len, fCrc := crc0
              buf := Memory.writeBytes [] 0 payload }

theorem witness_StepRunsDecodedInstruction :
    Config.tc2.wf = true
      ∧ read Config.tc2 { base with inputs := [0x03, 0x04] }.inputs = some (.sendEnd, [0x04])
      ∧ base.inputs = []
      ∧ why Config.tc2 { base with inputs := [0x02, 0x02] }.inputs = some .badIdleValue := by decide

theorem witness_IllFormedConfigurationIsRefused :
    { base with cfg := { Config.tc2 with retryPeriod := 2 ^ 32 } }.cfg.wf = false
      ∧ base.cfg.wf = true := by decide

theorem witness_ConfigurationIsConstant :
    (after (step { base with inputs := [0x03] })).isSome = true
      ∧ (after (exec (.rxByte 0x33) inData)).isSome = true := by decide +kernel

theorem witness_DecodeOfEncode :
    Config.tc2.wf = true ∧ (Instr.poll (2 ^ 32 - 1)).wf Config.tc2 = true
      ∧ (Instr.dataInbound 0xFFFF p0 0xFFFF).wf Config.tc2 = true
      ∧ (Instr.finishInbound 0 [] 0).wf Config.tc2 = true
      ∧ (Instr.otherInbound 0xFF 0 p0 0).wf Config.tc2 = true
      ∧ (Instr.overlengthInbound 0x02 0 5).wf Config.tc2 = true
      ∧ (Instr.overlengthInbound 0x02 0 0xFFFF).wf Config.tc2 = true
      ∧ (Instr.requestDataOutbound 0).wf Config.tc2 = true
      ∧ (Instr.ackOutbound (2 ^ 32 - 1)).wf Config.tc2 = true := by decide

theorem witness_EncodeOfDecode :
    Config.tc2.wf = true ∧ read Config.tc2 [0x02, 0x01, 0xFF] = some (.setIdle1, [0xFF]) := by decide

theorem witness_CrcDetectsSingleBitErrors :
    ([0x02, 0x00, 0x00] : List Byte)[2]? = some 0x00 ∧ (7 : Nat) < 8 := by decide

theorem witness_ParserHeaderStates :
    { base with fsm := .seekSof0 }.fsm = .seekSof0 ∧ { base with fsm := .seekSof1 }.fsm = .seekSof1
      ∧ { base with fsm := .type }.fsm = .type ∧ { base with fsm := .seq0 }.fsm = .seq0
      ∧ { base with fsm := .seq1 }.fsm = .seq1 ∧ { base with fsm := .len0 }.fsm = .len0
      ∧ { base with fsm := .crc0 }.fsm = .crc0 := by decide

/-- Lengths 0, 4 = `CAP` and 5 = `CAP + 1`. -/
theorem witness_ParserLengthCheck :
    { base with fsm := .len1 }.fsm = .len1
      ∧ (0 : U16) = (0x00 : Byte) ++ { base with fLen := 0 }.fLen.extractLsb' 0 8
      ∧ (4 : U16) = (0x00 : Byte) ++ { base with fLen := 4 }.fLen.extractLsb' 0 8
      ∧ (5 : U16) = (0x00 : Byte) ++ { base with fLen := 5 }.fLen.extractLsb' 0 8
      ∧ base.cfg.cap < (5 : U16).toNat ∧ ¬ base.cfg.cap < (4 : U16).toNat := by decide

/-- The first payload byte and the last. -/
theorem witness_ParserStoresPayloadByte :
    inData.Inv ∧ inData.fsm = .data ∧ inData.dataIdx.toNat + 1 = inData.fLen.toNat
      ∧ State.Inv { base with fsm := .data, fLen := 4 } := by decide +kernel

/-- One state for each disposition: CRC error, FINISH, other type, length, accept, duplicate, gap. -/
theorem witness_CompletedFrameIsDisposed :
    ((atCrc1 2 0 4 0x007E p0).Inv ∧ (atCrc1 2 0 4 0x007E p0).fsm = .crc1
        ∧ frameCRC 2 0 4 p0 ≠ 0x007E ∧ frameCRC 2 0 4 p0 = 0x9B7E
        ∧ (List.range 4).map (atCrc1 2 0 4 0x007E p0).buf.read = p0)
      ∧ ((atCrc1 4 0 0 0x000A []).Inv ∧ frameCRC 4 0 0 [] = 0x980A)
      ∧ ((atCrc1 6 0 0 0x0089 []).Inv ∧ frameCRC 6 0 0 [] = 0xDC89)
      ∧ ((atCrc1 2 0 3 0x00B8 [0x07, 0x11, 0x22]).Inv
        ∧ frameCRC 2 0 3 [0x07, 0x11, 0x22] = 0xE1B8)
      ∧ State.Inv { atCrc1 2 0 4 0x007E p0 with expectedSequence := 1 }
      ∧ ((atCrc1 2 3 4 0x0087 [0x09, 0x01, 0x02, 0x03]).Inv
        ∧ frameCRC 2 3 4 [0x09, 0x01, 0x02, 0x03] = 0x8287) := by decide +kernel

theorem witness_ParserAlwaysResynchronises :
    State.Inv { base with fsm := .seekSof1 } ∧ 4 + 8 ≤ (List.replicate 12 (0xAA : Byte)).length
      ∧ State.Inv inData ∧ 4 + 7 ≤ (List.replicate 11 (0xAA : Byte)).length := by decide +kernel

theorem witness_ParserResyncBoundAsWritten :
    base.cfg.wf = true ∧ State.Inv { base with fsm := .seekSof1 }
      ∧ base.cfg.cap + 7 ≤ (List.replicate 11 (0x55 : Byte)).length := by decide +kernel

theorem witness_StrayMarkerHidesFrame : base.fsm = .seekSof0 ∧ base.cfg.sof0 ≠ base.cfg.sof1 := by
  decide

/-- A payload of `CAP` bytes after noise, and an empty one. -/
theorem witness_FrameAfterNoiseIsDispatched :
    base.Inv ∧ base.cfg.wf = true ∧ p0.length ≤ base.cfg.cap ∧ ([] : List Byte).length ≤ base.cfg.cap
      ∧ (after (receiveBytes [0x00, 0xAA, 0xAA] base)).map (·.fsm) = some .seekSof0 := by
  decide +kernel

theorem witness_SerializedFrameRoundTrip :
    base.Inv ∧ base.cfg.wf = true ∧ p0.length ≤ base.cfg.cap ∧ base.fsm = .seekSof0
      ∧ (0x03 : Byte) = base.cfg.tAck := by decide +kernel

/-- One input for each disposition: CRC error, length error, accept, duplicate, gap. -/
theorem witness_DataFrameDisposition :
    base.Inv ∧ base.cfg.wf = true ∧ p0.length ≤ base.cfg.cap ∧ base.fsm = .seekSof0
      ∧ frameCRC 2 0 4 p0 = 0x9B7E ∧ frameCRC 2 0 4 p0 ≠ 0x9B7F
      ∧ frameCRC 2 0 0 [] = 0x558F ∧ ([] : List Byte).length ≠ base.cfg.dataLen
      ∧ State.Inv { base with expectedSequence := 1 }
      ∧ frameCRC 2 3 4 [0x09, 0x01, 0x02, 0x03] = 0x8287 := by decide +kernel

theorem witness_FinishFrameDisposition :
    base.Inv ∧ base.cfg.wf = true ∧ ([] : List Byte).length ≤ base.cfg.cap ∧ base.fsm = .seekSof0
      ∧ frameCRC 4 7 0 [] = 0xC927 ∧ frameCRC 4 7 0 [] ≠ 0x3627 := by decide +kernel

theorem witness_OtherFrameDisposition :
    base.Inv ∧ base.cfg.wf = true ∧ ([0x00] : List Byte).length ≤ base.cfg.cap
      ∧ base.fsm = .seekSof0 ∧ (0x03 : Byte) ≠ base.cfg.tData ∧ (0x03 : Byte) ≠ base.cfg.tFinish
      ∧ frameCRC 3 0 1 [0x00] = 0xF7C0 ∧ frameCRC 3 0 1 [0x00] ≠ 0xF7C1 := by decide +kernel

theorem witness_OverlengthHeaderIsDropped :
    base.fsm = .seekSof0 ∧ base.cfg.cap < (5 : U16).toNat ∧ base.cfg.cap < (0xFFFF : U16).toNat := by
  decide

theorem witness_PollWhileIdleIsSilent : { base with idle := true }.idle = true := by decide

/-- The initial REQUEST (V-PD-1), the period's boundary (V-PD-2: 19 and 20 ticks), the tick's wrap
(V-PD-8), an advancing decision and one that does not advance (V-PD-5). -/
theorem witness_PollWhileActive :
    base.idle = false ∧ base.reqDue = true ∧ 0 < 2 ^ base.cfg.tickW
      ∧ ¬ (base.cfg.retryPeriod : Int) ≤ ((19 : Int) - 0) % 2 ^ base.cfg.tickW
      ∧ (base.cfg.retryPeriod : Int) ≤ ((20 : Int) - 0) % 2 ^ base.cfg.tickW
      ∧ 0xFFFFFFF0 < 2 ^ base.cfg.tickW
      ∧ ¬ (base.cfg.retryPeriod : Int) ≤ ((3 : Int) - 0xFFFFFFF0) % 2 ^ base.cfg.tickW
      ∧ { base with pendingAck := some ⟨.ok, 0⟩ }.pendingAck = some ⟨.ok, base.expectedSequence⟩
      ∧ (some ⟨.ok, 1⟩ : Option Decision) ≠ some ⟨.ok, base.expectedSequence⟩ := by decide

theorem witness_SequenceAdvancesOnlyOnOkDispatch :
    (after (exec (.poll 1) { base with pendingAck := some ⟨.ok, 0⟩ })).map (·.expectedSequence)
        = some 1
      ∧ (after (execAll [.setIdle0, .poll 1] { base with pendingAck := some ⟨.ok, 0⟩ })).map
          (·.expectedSequence) = some 1 := by decide +kernel

/-- Idle; active with the REQUEST due at the period's boundary; active with it not due. -/
theorem witness_RequestRowEmission :
    { base with idle := true }.idle = true ∧ base.idle = false ∧ base.pendingAck = none
      ∧ (20 : Nat) < 2 ^ base.cfg.tickW ∧ base.lastRequestTime < 2 ^ base.cfg.tickW
      ∧ base.reqDue = true ∧ { base with reqDue := false }.reqDue = false
      ∧ (base.cfg.retryPeriod : Int) ≤ ((20 : Int) - 0) % 2 ^ base.cfg.tickW
      ∧ ¬ (base.cfg.retryPeriod : Int) ≤ ((19 : Int) - 0) % 2 ^ base.cfg.tickW := by decide

/-- Idle; active one tick before the period's boundary with no decision, one that does not advance
and one that does. -/
theorem witness_AckRowDispatch :
    { base with idle := true }.idle = true ∧ base.idle = false
      ∧ { base with reqDue := false }.reqDue = false ∧ (19 : Nat) < 2 ^ base.cfg.tickW
      ∧ base.lastRequestTime < 2 ^ base.cfg.tickW
      ∧ ((19 : Int) - 0) % 2 ^ base.cfg.tickW < base.cfg.retryPeriod
      ∧ base.pendingAck = none
      ∧ (⟨.error, 0⟩ : Decision) ≠ ⟨.ok, base.expectedSequence⟩
      ∧ (⟨.ok, 1⟩ : Decision) ≠ ⟨.ok, base.expectedSequence⟩
      ∧ { base with pendingAck := some ⟨.ok, 0⟩ }.pendingAck
        = some ⟨.ok, base.expectedSequence⟩ := by decide

theorem witness_EveryRunIsARunOfEvents :
    base.cfg = Config.tc2
      ∧ ∀ i ∈ [Instr.dataInbound 0 p0 0x9B7E, .ackOutbound 1], i.wf Config.tc2 = true := by decide

theorem witness_SerializedLayout :
    (4 : U16) = BitVec.ofNat 16 p0.length
      ∧ (0x9B7E : U16) = crcUpdate (crcUpdate 0xFFFF [0x02, 0x00, 0x00, 0x04, 0x00]) p0 := by
  decide +kernel

theorem witness_IdleLeavesNoDecision :
    (after (exec (.poll 0) { base with idle := true, pendingAck := some ⟨.ok, 0⟩ })).map (·.idle)
        = some true
      ∧ (after (exec .setIdle1 { base with pendingAck := some ⟨.ok, 0⟩ })).isSome = true := by decide

theorem witness_EveryInstructionCompletes : base.Inv ∧ inData.Inv := by decide +kernel

theorem witness_StepKeepsInvariant :
    State.Inv { inData with inputs := [0x00, 0x33] }
      ∧ (after (step { inData with inputs := [0x00, 0x33] })).map (·.fsm) = some .crc0 := by
  decide +kernel

/-- A FINISH that sets `idle`, a payload byte that changes the buffer, a decision at `Crc1`, and the
other kinds of step. -/
theorem witness_WritersOfEachField :
    (after (exec (.rxByte 0x98) (atCrc1 4 0 0 0x000A []))).map (·.idle) = some true
      ∧ (after (exec (.rxByte 0x33) inData)).map (·.buf)
        = some [(0, 0x07), (1, 0x11), (2, 0x22), (3, 0x33)]
      ∧ pend (exec (.rxByte 0x9B) (atCrc1 2 0 4 0x007E p0)) = some (some ⟨.ok, 0⟩)
      ∧ (after (exec (.poll 0) base)).isSome = true ∧ (after (exec .setIdle1 base)).isSome = true
      ∧ (after (exec .setIdle0 base)).isSome = true ∧ (after (exec .sendEnd base)).isSome = true
      ∧ (after (exec .reset base)).isSome = true
      ∧ (after (exec (.dataInbound 0 p0 0x9B7E) base)).isSome = true
      ∧ (after (exec (.requestDataOutbound 0) base)).isSome = true
      ∧ (after (exec (.ackOutbound 0) base)).isSome = true
      ∧ (after (exec .endOutbound base)).isSome = true := by decide +kernel

theorem witness_OutputKindsByInstruction :
    outs (exec (.poll 0) base) = some [.tx req0]
      ∧ outs (exec (.rxByte 0x9B) (atCrc1 2 0 4 0x007E p0))
        = some [.store [0x11, 0x22, 0x33], .indRecord] := by decide +kernel

theorem witness_NothingIsSentWhileIdle :
    { base with idle := true }.idle = true
      ∧ (after (exec (.poll 100) { base with idle := true })).isSome = true
      ∧ Instr.poll 100 ≠ .sendEnd ∧ Instr.poll 100 ≠ .endOutbound := by decide

theorem witness_RequestDueMeansNoRequestYet :
    base.cfg.wf = true ∧ Instr.reset ∉ [Instr.rxByte 0x00, .sendEnd]
      ∧ (after (execAll [.rxByte 0x00, .sendEnd] base)).map (·.reqDue) = some true := by
  decide +kernel

/-- The same state with other values in the fields R230 leaves unspecified. -/
def other : State :=
  { base with lastRequestTime := 77, fType := 0x99, fSeq := 0x1234, fLen := 0xFFFF, fCrc := 0xBEEF
              dataIdx := 9, buf := [(2, 0x5A)] }

theorem witness_UnspecifiedFieldsAreUnobservable :
    base.Inv ∧ other.Inv ∧ base.reqDue = true ∧ base.fsm = .seekSof0
      ∧ other = { base with
          lastRequestTime := other.lastRequestTime, fType := other.fType, fSeq := other.fSeq
          fLen := other.fLen, fCrc := other.fCrc, dataIdx := other.dataIdx, buf := other.buf }
      ∧ other ≠ base := by decide +kernel

theorem witness_DoubleStorageBeforePoll :
    base.Inv ∧ base.cfg.wf = true ∧ p0.length = base.cfg.dataLen ∧ base.fsm = .seekSof0
      ∧ base.idle = false ∧ (0 : U16) = base.expectedSequence ∧ (0 : U16) ≠ 0xFFFF
      ∧ 0x9B7E = frameCRC base.cfg.tData 0 (BitVec.ofNat 16 p0.length) p0 := by decide +kernel

theorem witness_OverwrittenOkDecisionIsLost :
    State.Inv { base with reqDue := false } ∧ base.cfg.wf = true ∧ p0.length = base.cfg.dataLen
      ∧ ([] : List Byte).length ≤ base.cfg.cap ∧ base.fsm = .seekSof0 ∧ base.idle = false
      ∧ { base with reqDue := false }.reqDue = false ∧ 0 = base.lastRequestTime
      ∧ 0 < base.cfg.retryPeriod ∧ (0 : U16) = base.expectedSequence
      ∧ 0x9B7E = frameCRC base.cfg.tData 0 (BitVec.ofNat 16 p0.length) p0
      ∧ 0x3627 ≠ frameCRC 0x04 7 (BitVec.ofNat 16 ([] : List Byte).length) [] := by decide +kernel

theorem witness_DecisionMadeWhileIdle :
    State.Inv { base with idle := true, reqDue := false } ∧ base.cfg.wf = true
      ∧ p0.length = base.cfg.dataLen ∧ base.fsm = .seekSof0
      ∧ { base with idle := true, reqDue := false }.idle = true
      ∧ { base with idle := true, reqDue := false }.reqDue = false
      ∧ 0 = base.lastRequestTime ∧ 0 < base.cfg.retryPeriod ∧ (0 : U16) = base.expectedSequence
      ∧ 0x9B7E = frameCRC base.cfg.tData 0 (BitVec.ofNat 16 p0.length) p0 := by decide +kernel

end Sys2Proof.Tests
end

/-! Proofs of the scope statements (spec/00_scope.md). -/

section
/-! The configuration check and the stops of a step. -/

namespace Sys2Proof

/-- R8, its conditions one by one. -/
theorem Config.wf_iff (c : Config) :
    c.wf = true ↔
      (c.tRequestData ≠ c.tData ∧ c.tRequestData ≠ c.tAck
          ∧ c.tRequestData ≠ c.tFinish ∧ c.tRequestData ≠ c.tEnd
          ∧ c.tData ≠ c.tAck ∧ c.tData ≠ c.tFinish ∧ c.tData ≠ c.tEnd
          ∧ c.tAck ≠ c.tFinish ∧ c.tAck ≠ c.tEnd
          ∧ c.tFinish ≠ c.tEnd)
        ∧ (1 ≤ c.cap ∧ c.cap ≤ 65535)
        ∧ (1 ≤ c.dataLen ∧ c.dataLen ≤ c.cap)
        ∧ 1 ≤ c.tickW
        ∧ c.retryPeriod < 2 ^ c.tickW := by
  simp [Config.wf, Config.typeCodes, and_assoc]

end Sys2Proof

namespace Sys2Proof.Machine

theorem next_ne_refused (s : State) (e : Refusal) : (.next s : Result) ≠ .refused e := by simp

theorem andThen_ne_refused {r : Result} {f : State → Result}
    (hr : ∀ e, r ≠ .refused e) (hf : ∀ s e, f s ≠ .refused e) (e : Refusal) :
    andThen r f ≠ .refused e := by
  cases r with
  | next s => exact hf s e
  | fault _ => simp
  | refused e' => exact absurd rfl (hr e')

theorem memWrite_ne_refused (i : Nat) (b : Byte) (s : State) (e : Refusal) :
    memWrite i b s ≠ .refused e := by
  unfold memWrite
  split <;> simp

theorem acceptRecord_ne_refused (s : State) (e : Refusal) : acceptRecord s ≠ .refused e := by
  unfold acceptRecord
  split <;> simp

theorem handleData_ne_refused (s : State) (e : Refusal) : handleData s ≠ .refused e := by
  unfold handleData
  split_ifs
  case pos => simp
  case pos => exact acceptRecord_ne_refused s e
  all_goals simp

theorem handle_ne_refused (s : State) (e : Refusal) : handle s ≠ .refused e := by
  unfold handle
  split
  · simp
  · split_ifs
    case neg => exact handleData_ne_refused s e
    all_goals simp

/-- Reception refuses no byte: only `Data` and `Crc1` can fail to go on, and they fault. -/
theorem receiveByte_ne_refused (b : Byte) (s : State) (e : Refusal) :
    receiveByte b s ≠ .refused e := by
  unfold receiveByte
  cases s.fsm
  case data =>
    exact andThen_ne_refused (memWrite_ne_refused _ _ _) (fun _ => next_ne_refused _) e
  case crc1 => exact handle_ne_refused _ e
  all_goals exact next_ne_refused _ e

theorem receiveBytes_ne_refused (bs : List Byte) (s : State) (e : Refusal) :
    receiveBytes bs s ≠ .refused e := by
  induction bs generalizing s e with
  | nil => simp [receiveBytes]
  | cons b bs ih => exact andThen_ne_refused (receiveByte_ne_refused b s) ih e

/-- Every row of the table has a meaning. -/
theorem exec_ne_refused (i : Instr) (s : State) (e : Refusal) : exec i s ≠ .refused e := by
  cases i with
  | rxByte b => exact receiveByte_ne_refused b s e
  | dataInbound _ _ _ | finishInbound _ _ _ | otherInbound _ _ _ _ | overlengthInbound _ _ _ =>
    exact receiveBytes_ne_refused _ s e
  | poll _ | setIdle1 | setIdle0 | sendEnd | reset
  | requestDataOutbound _ | ackOutbound _ | endOutbound => exact next_ne_refused _ e

/-- The configuration check is the only source of its refusal. -/
theorem step_eq_illFormedConfig_iff (s : State) :
    step s = .refused .illFormedConfig ↔ ¬ s.cfg.wf = true := by
  unfold step
  by_cases hwf : s.cfg.wf = true
  · rw [if_pos hwf]
    simp only [hwf, not_true_eq_false, iff_false]
    split_ifs
    · simp
    · split
      · exact exec_ne_refused _ _ _
      · simp
  · simp [hwf]

end Sys2Proof.Machine

open Sys2Proof Sys2Proof.Machine

/-- Settles O3: the refusal comes from the configuration check alone, and the check is R8. -/
theorem illFormedConfigurationIsRefused : Obligations.IllFormedConfigurationIsRefused := by
  intro s
  rw [step_eq_illFormedConfig_iff, Config.wf_iff]

end

section
/-! Runs of table rows as runs of the input events of R80. -/

namespace Sys2Proof.Machine

theorem emitRequest_cfg (now : Nat) (s : State) : (emitRequest now s).cfg = s.cfg := rfl

theorem timedRequest_cfg (now : Nat) (s : State) : (timedRequest now s).cfg = s.cfg := by
  unfold timedRequest
  split
  · exact emitRequest_cfg now s
  · rfl

theorem advanceSequence_cfg (now : Nat) (d : Decision) (s : State) :
    (advanceSequence now d s).cfg = s.cfg := by
  unfold advanceSequence
  split_ifs <;> rfl

theorem dispatchDecision_cfg (now : Nat) (s : State) : (dispatchDecision now s).cfg = s.cfg := by
  unfold dispatchDecision
  split
  · rfl
  · exact advanceSequence_cfg now _ _

theorem pollStep_cfg (now : Nat) (s : State) : (pollStep now s).cfg = s.cfg := by
  unfold pollStep
  split
  · rfl
  · rw [dispatchDecision_cfg, timedRequest_cfg]

theorem Received.cfg {s t : State} (h : Received s t) : t.cfg = s.cfg := by rw [h.1]

/-- No meaning writes the configuration (R34). -/
theorem exec_cfg {i : Instr} {s t : State} (h : exec i s = .next t) : t.cfg = s.cfg := by
  cases i with
  | rxByte b => exact (receiveByte_received h).cfg
  | dataInbound _ _ _ | finishInbound _ _ _ | otherInbound _ _ _ _ | overlengthInbound _ _ _ =>
    exact (receiveBytes_received h).cfg
  | poll now | requestDataOutbound now | ackOutbound now =>
    cases h
    exact pollStep_cfg now s
  | setIdle1 | setIdle0 | sendEnd | reset | endOutbound =>
    cases h
    rfl

theorem execAll_append (is js : List Instr) (s : State) :
    execAll (is ++ js) s = andThen (execAll is s) (execAll js) := by
  induction is generalizing s with
  | nil => rfl
  | cons i is ih =>
    simp only [List.cons_append, execAll]
    cases exec i s <;> simp [ih]

theorem execAll_singleton (i : Instr) (s : State) : execAll [i] s = exec i s := by
  simp only [execAll]
  cases exec i s <;> rfl

/-- A run of `RX_BYTE` events is a byte burst (R83). -/
theorem execAll_map_rxByte (bs : List Byte) (s : State) :
    execAll (bs.map .rxByte) s = receiveBytes bs s := by
  induction bs generalizing s with
  | nil => rfl
  | cons b bs ih => exact congrArg (andThen (receiveByte b s)) (funext ih)

/-- The input events of R80. -/
def IsEvent (e : Instr) : Prop :=
  (∃ b, e = .rxByte b) ∨ (∃ now, e = .poll now) ∨ e = .setIdle1 ∨ e = .setIdle0
    ∨ e = .sendEnd ∨ e = .reset

/-- The events a table row stands for under a configuration: an inbound frame is its bytes (log 9),
an outbound frame the event that transmits it (log 10). -/
def eventsOf (c : Config) : Instr → List Instr
  | .dataInbound seq payload crc => (frameBytes c c.tData seq payload crc).map .rxByte
  | .finishInbound seq payload crc => (frameBytes c c.tFinish seq payload crc).map .rxByte
  | .otherInbound type seq payload crc => (frameBytes c type seq payload crc).map .rxByte
  | .overlengthInbound type seq len => (headerBytes c type seq len).map .rxByte
  | .requestDataOutbound now => [.poll now]
  | .ackOutbound now => [.poll now]
  | .endOutbound => [.sendEnd]
  | .rxByte b => [.rxByte b]
  | .poll now => [.poll now]
  | .setIdle1 => [.setIdle1]
  | .setIdle0 => [.setIdle0]
  | .sendEnd => [.sendEnd]
  | .reset => [.reset]

/-- A row runs as its events do, a stop included. -/
theorem execAll_eventsOf (i : Instr) (s : State) : execAll (eventsOf s.cfg i) s = exec i s := by
  cases i with
  | dataInbound _ _ _ | finishInbound _ _ _ | otherInbound _ _ _ _ | overlengthInbound _ _ _ =>
    exact execAll_map_rxByte _ s
  | rxByte _ | poll _ | setIdle1 | setIdle0 | sendEnd | reset => exact execAll_singleton _ s
  | requestDataOutbound now | ackOutbound now => exact execAll_singleton (.poll now) s
  | endOutbound => exact execAll_singleton .sendEnd s

theorem isEvent_of_mem_map_rxByte {e : Instr} {bs : List Byte} (h : e ∈ bs.map Instr.rxByte) :
    IsEvent e := by
  obtain ⟨b, -, rfl⟩ := List.mem_map.mp h
  exact .inl ⟨b, rfl⟩

theorem wf_of_mem_map_rxByte {c : Config} {e : Instr} {bs : List Byte}
    (h : e ∈ bs.map Instr.rxByte) : e.wf c = true := by
  obtain ⟨b, -, rfl⟩ := List.mem_map.mp h
  rfl

theorem isEvent_of_mem_eventsOf {c : Config} {i e : Instr} (h : e ∈ eventsOf c i) : IsEvent e := by
  cases i with
  | dataInbound _ _ _ | finishInbound _ _ _ | otherInbound _ _ _ _ | overlengthInbound _ _ _ =>
    exact isEvent_of_mem_map_rxByte h
  | rxByte _ | poll _ | setIdle1 | setIdle0 | sendEnd | reset
  | requestDataOutbound _ | ackOutbound _ | endOutbound =>
    obtain rfl := List.mem_singleton.mp h
    simp [IsEvent]

/-- A row's tick is its event's tick; the bytes of a frame need no check. -/
theorem wf_of_mem_eventsOf {c : Config} {i e : Instr} (hi : i.wf c = true)
    (h : e ∈ eventsOf c i) : e.wf c = true := by
  cases i with
  | dataInbound _ _ _ | finishInbound _ _ _ | otherInbound _ _ _ _ | overlengthInbound _ _ _ =>
    exact wf_of_mem_map_rxByte h
  | rxByte _ | poll _ | setIdle1 | setIdle0 | sendEnd | reset
  | requestDataOutbound _ | ackOutbound _ | endOutbound =>
    obtain rfl := List.mem_singleton.mp h
    exact hi

/-- The configuration stays, so the events of a whole run can be read off in advance. -/
theorem execAll_flatMap_eventsOf (is : List Instr) (s : State) :
    execAll (is.flatMap (eventsOf s.cfg)) s = execAll is s := by
  induction is generalizing s with
  | nil => rfl
  | cons i is ih =>
    rw [List.flatMap_cons, execAll_append, execAll_eventsOf]
    change andThen (exec i s) _ = andThen (exec i s) _
    cases h : exec i s with
    | next t => rw [andThen_next, andThen_next, ← exec_cfg h, ih]
    | fault _ => rfl
    | refused _ => rfl

end Sys2Proof.Machine

open Sys2Proof Sys2Proof.Machine

/-- Settles O47: every row is replaced by the events it stands for. -/
theorem everyRunIsARunOfEvents : Obligations.EveryRunIsARunOfEvents := by
  intro is c
  refine ⟨is.flatMap (eventsOf c), fun e he => ?_, fun hwf e he => ?_, ?_⟩
  · obtain ⟨i, -, hei⟩ := List.mem_flatMap.mp he
    exact isEvent_of_mem_eventsOf hei
  · obtain ⟨i, hi, hei⟩ := List.mem_flatMap.mp he
    exact wf_of_mem_eventsOf (hwf i hi) hei
  · rintro s rfl
    exact (execAll_flatMap_eventsOf is s).symm

end

section
/-! The CRC engine in polynomials over GF(2) (R14). Congruence modulo the CRC polynomial is equality
in the quotient ring, where every round of R101 is one multiplication by `X`. -/

namespace Sys2Proof.Machine

open Polynomial

/-- The bits of a word as coefficients, bit `k` at `X ^ k`. -/
noncomputable def bitPoly {w : Nat} (v : BitVec w) : (ZMod 2)[X] :=
  ∑ k ∈ Finset.range w, if v.getLsbD k then X ^ k else 0

/-- The CRC polynomial with its leading term, which `crcPoly` (R100) leaves out. -/
noncomputable def crcModulus : (ZMod 2)[X] := X ^ 16 + X ^ 12 + X ^ 5 + 1

/-- The message of R101: the first byte at the highest power. -/
noncomputable def messagePoly (bytes : List Byte) : (ZMod 2)[X] :=
  bytes.foldl (fun p b => p * X ^ 8 + bitPoly b) 0

theorem messagePoly_append_singleton (bytes : List Byte) (b : Byte) :
    messagePoly (bytes ++ [b]) = messagePoly bytes * X ^ 8 + bitPoly b := by
  simp [messagePoly]

/-- Exclusive or is the sum over GF(2). -/
theorem bitPoly_xor {w : Nat} (u v : BitVec w) : bitPoly (u ^^^ v) = bitPoly u + bitPoly v := by
  unfold bitPoly
  rw [← Finset.sum_add_distrib]
  refine Finset.sum_congr rfl fun k _ => ?_
  rw [BitVec.getLsbD_xor]
  cases u.getLsbD k <;> cases v.getLsbD k <;> simp [CharTwo.add_self_eq_zero]

/-- A left shift by one multiplies by `X`, but for the bit that leaves the word. -/
theorem X_mul_bitPoly {w : Nat} (v : BitVec (w + 1)) :
    X * bitPoly v = bitPoly (v <<< 1) + if v.getLsbD w then X ^ (w + 1) else 0 := by
  unfold bitPoly
  rw [Finset.mul_sum, Finset.sum_range_succ, Finset.sum_range_succ' _ w]
  have hlow : ∀ k ∈ Finset.range w, (X : (ZMod 2)[X]) * (if v.getLsbD k then X ^ k else 0)
      = if (v <<< 1).getLsbD (k + 1) then X ^ (k + 1) else 0 := by
    intro k hk
    have hk : k < w := Finset.mem_range.mp hk
    have hshift : (v <<< 1).getLsbD (k + 1) = v.getLsbD k := by
      rw [BitVec.getLsbD_shiftLeft, Nat.add_sub_cancel]
      simp only [hk, Nat.add_lt_add_iff_right, decide_true, Nat.not_lt.mpr (Nat.le_add_left 1 k),
        decide_false, Bool.not_false, Bool.true_and]
    rw [hshift, mul_ite, mul_zero, pow_succ']
  rw [Finset.sum_congr rfl hlow]
  simp [pow_succ']

/-- A byte shifted to the top of a 16-bit register. -/
theorem bitPoly_byteAtTop (b : Byte) :
    bitPoly (b.setWidth 16 <<< 8 : U16) = X ^ 8 * bitPoly b := by
  have hlow : ∀ k ∈ Finset.range 8,
      (if (b.setWidth 16 <<< 8 : U16).getLsbD k then (X : (ZMod 2)[X]) ^ k else 0) = 0 := by
    intro k hk
    have hk : k < 8 := Finset.mem_range.mp hk
    simp [BitVec.getLsbD_shiftLeft, hk]
  have hhigh : ∀ k ∈ Finset.range 8,
      (if (b.setWidth 16 <<< 8 : U16).getLsbD (8 + k) then (X : (ZMod 2)[X]) ^ (8 + k) else 0)
        = X ^ 8 * (if b.getLsbD k then X ^ k else 0) := by
    intro k hk
    have hk : k < 8 := Finset.mem_range.mp hk
    have hk16 : 8 + k < 16 := by omega
    simp [hk16, pow_add]
  unfold bitPoly
  rw [Finset.sum_range_add _ 8 8, Finset.sum_eq_zero hlow, zero_add,
    Finset.sum_congr rfl hhigh, Finset.mul_sum]

theorem bitPoly_crcPoly : bitPoly crcPoly = X ^ 12 + X ^ 5 + 1 := by
  have hbit : ∀ k ∈ Finset.range 16, crcPoly.getLsbD k = decide (k = 12 ∨ k = 5 ∨ k = 0) := by
    decide
  unfold bitPoly
  rw [Finset.sum_congr rfl fun k hk => by rw [hbit k hk]]
  simp [Finset.sum_range_succ]
  ring

/-- The remainder class of a register's polynomial. -/
noncomputable def crcClass (c : U16) : AdjoinRoot crcModulus := AdjoinRoot.mk crcModulus (bitPoly c)

/-- The class of `X`. -/
noncomputable def crcX : AdjoinRoot crcModulus := AdjoinRoot.mk crcModulus X

/-- One round multiplies by `X`: where the top bit leaves the register, subtracting the modulus
takes it away. -/
theorem crcClass_crcBit (c : U16) : crcClass (crcBit c) = crcX * crcClass c := by
  unfold crcClass crcX
  rw [← map_mul, X_mul_bitPoly, AdjoinRoot.mk_eq_mk]
  unfold crcBit
  split
  · rw [bitPoly_xor, bitPoly_crcPoly, add_sub_add_left_eq_sub, CharTwo.sub_eq_add]
    exact dvd_of_eq (by unfold crcModulus; ring)
  · simp

theorem crcClass_crcBits (n : Nat) (c : U16) : crcClass (crcBits n c) = crcX ^ n * crcClass c := by
  induction n generalizing c with
  | zero => simp [crcBits]
  | succ n ih => rw [crcBits, ih, crcClass_crcBit, pow_succ, mul_assoc]

theorem crcClass_crcByte (c : U16) (b : Byte) :
    crcClass (crcByte c b)
      = crcX ^ 8 * crcClass c + crcX ^ 16 * AdjoinRoot.mk crcModulus (bitPoly b) := by
  have hin : crcClass (c ^^^ (b.setWidth 16 <<< 8))
      = crcClass c + crcX ^ 8 * AdjoinRoot.mk crcModulus (bitPoly b) := by
    unfold crcClass crcX
    rw [bitPoly_xor, bitPoly_byteAtTop, map_add, map_mul, map_pow]
  rw [crcByte, crcClass_crcBits, hin]
  ring

theorem crcUpdate_append_singleton (c : U16) (bytes : List Byte) (b : Byte) :
    crcUpdate c (bytes ++ [b]) = crcByte (crcUpdate c bytes) b := by
  simp [crcUpdate]

theorem crcClass_crcUpdate (c : U16) (bytes : List Byte) :
    crcClass (crcUpdate c bytes)
      = crcX ^ (8 * bytes.length) * crcClass c
        + crcX ^ 16 * AdjoinRoot.mk crcModulus (messagePoly bytes) := by
  induction bytes using List.reverseRecOn with
  | nil => simp [crcUpdate, messagePoly]
  | append_singleton bytes b ih =>
    have hmsg : AdjoinRoot.mk crcModulus (messagePoly (bytes ++ [b]))
        = AdjoinRoot.mk crcModulus (messagePoly bytes) * crcX ^ 8
          + AdjoinRoot.mk crcModulus (bitPoly b) := by
      rw [messagePoly_append_singleton, map_add, map_mul, map_pow, crcX]
    rw [crcUpdate_append_singleton, crcClass_crcByte, ih, hmsg, List.length_append,
      List.length_singleton, Nat.mul_add]
    ring

end Sys2Proof.Machine

open Sys2Proof Sys2Proof.Machine

/-- Settles O11: equal classes differ by a multiple of the modulus. -/
theorem crcIsPolynomialRemainder : Obligations.CrcIsPolynomialRemainder := by
  intro c bytes
  have hclass := crcClass_crcUpdate c bytes
  unfold crcClass crcX at hclass
  rw [← map_pow, ← map_pow, ← map_mul, ← map_mul, ← map_add] at hclass
  obtain ⟨q, hq⟩ := AdjoinRoot.mk_eq_mk.mp hclass.symm
  exact ⟨q, (sub_eq_iff_eq_add'.mp hq).symm⟩

end

section
/-! What a step leaves alone, its writers field by field, and the invariant (spec/10_state.md). -/

namespace Sys2Proof.Machine

/-- A step that answers a next state runs under a well-formed configuration; it waits on an empty
stream, or takes the transaction at its head off and runs it. -/
theorem step_eq_next {s t : State} (h : step s = .next t) :
    s.cfg.wf = true ∧ (s.inputs = [] ∧ t = s
      ∨ ∃ i rest, fetch s = .ok (i, rest) ∧ exec i (s.setInputs rest) = .next t) := by
  unfold step at h
  split_ifs at h with hwf hempty
  · cases h
    exact ⟨hwf, .inl ⟨hempty, rfl⟩⟩
  · cases hfetch : fetch s with
    | ok head =>
      rw [hfetch] at h
      exact ⟨hwf, .inr ⟨head.1, head.2, rfl, h⟩⟩
    | error why =>
      rw [hfetch] at h
      cases h

/-! ### The Poll Driver -/

/-- What a `POLL` at tick `now` may change (R31): the sequence, the decision, the timer, which then
holds that tick, the initial request, which it never makes due, and the outputs. -/
def Polled (now : Nat) (s t : State) : Prop :=
  t = { s with
      expectedSequence := t.expectedSequence, pendingAck := t.pendingAck
      lastRequestTime := t.lastRequestTime, reqDue := t.reqDue, outputs := t.outputs }
    ∧ (t.lastRequestTime = s.lastRequestTime ∨ t.lastRequestTime = tickOf s.cfg now)
    ∧ (t.reqDue = true → s.reqDue = true)

theorem Polled.refl (now : Nat) (s : State) : Polled now s s := ⟨rfl, .inl rfl, id⟩

theorem Polled.trans {now : Nat} {s t u : State} (h : Polled now s t) (k : Polled now t u) :
    Polled now s u := by
  obtain ⟨hframe, htime, hdue⟩ := h
  obtain ⟨kframe, ktime, kdue⟩ := k
  have hcfg : t.cfg = s.cfg := by rw [hframe]
  refine ⟨by rw [kframe, hframe], ?_, hdue ∘ kdue⟩
  rcases ktime with ktime | ktime
  · rwa [ktime]
  · exact .inr (hcfg ▸ ktime)

theorem Polled.idle {now : Nat} {s t : State} (h : Polled now s t) : t.idle = s.idle := by
  rw [h.1]

theorem Polled.inputs {now : Nat} {s t : State} (h : Polled now s t) : t.inputs = s.inputs := by
  rw [h.1]

theorem polled_emitRequest (now : Nat) (s : State) : Polled now s (emitRequest now s) :=
  ⟨rfl, .inr rfl, by simp [emitRequest]⟩

theorem polled_timedRequest (now : Nat) (s : State) : Polled now s (timedRequest now s) := by
  unfold timedRequest
  split_ifs
  · exact polled_emitRequest now s
  · exact Polled.refl now s

theorem polled_advanceSequence (now : Nat) (d : Decision) (s : State) :
    Polled now s (advanceSequence now d s) := by
  have hset : Polled now s (s.setExpected (s.expectedSequence + 1)) := ⟨rfl, .inl rfl, id⟩
  unfold advanceSequence
  split_ifs
  · exact hset
  · exact hset.trans (polled_emitRequest now _)
  · exact Polled.refl now s

theorem polled_dispatchDecision (now : Nat) (s : State) :
    Polled now s (dispatchDecision now s) := by
  unfold dispatchDecision
  split
  · exact Polled.refl now s
  next d _ =>
    have hack : Polled now s (s.emit (.tx (ackFrame s.cfg d))) := ⟨rfl, .inl rfl, id⟩
    have hclear (u : State) : Polled now u (clearDecision u) := ⟨rfl, .inl rfl, id⟩
    exact (hack.trans (polled_advanceSequence now d _)).trans (hclear _)

theorem polled_pollStep (now : Nat) (s : State) : Polled now s (pollStep now s) := by
  unfold pollStep
  split_ifs
  · exact ⟨rfl, .inl rfl, id⟩
  · exact (polled_timedRequest now s).trans (polled_dispatchDecision now _)

/-- After step 2 no initial request is due: if it was, step 2 has sent it (R162, R163). -/
theorem timedRequest_reqDue (now : Nat) (s : State) : (timedRequest now s).reqDue = false := by
  unfold timedRequest
  split_ifs with h
  · rfl
  · simp only [requestDue, Bool.or_eq_true, not_or] at h
    simpa using h.1

/-- A poll leaves the initial request due only while idle. -/
theorem idle_of_pollStep_reqDue {now : Nat} {s : State} (h : (pollStep now s).reqDue = true) :
    s.idle = true := by
  by_contra hidle
  rw [pollStep_active (by simpa using hidle)] at h
  obtain ⟨-, -, hdue⟩ := polled_dispatchDecision now (timedRequest now s)
  exact absurd (hdue h) (by simp [timedRequest_reqDue])

/-! ### Reception -/

theorem Received.inputs {s t : State} (h : Received s t) : t.inputs = s.inputs := by rw [h.1]

/-- Before `Crc1` a byte leaves the flags alone: only the handler writes them. -/
theorem receiveByte_flags {b : Byte} {s t : State} (hf : s.fsm ≠ .crc1)
    (h : receiveByte b s = .next t) : t.idle = s.idle ∧ t.pendingAck = s.pendingAck := by
  unfold receiveByte at h
  cases hs : s.fsm <;> simp only [hs] at h
  case crc1 => exact absurd hs hf
  case data =>
    simp only [parseData, andThen_eq_next, memWrite_eq_next] at h
    obtain ⟨u, ⟨-, rfl⟩, h⟩ := h
    cases h
    unfold advanceData
    split_ifs <;> exact ⟨rfl, rfl⟩
  case len1 =>
    cases h
    unfold checkLength
    split_ifs <;> exact ⟨rfl, rfl⟩
  all_goals
    cases h
    exact ⟨rfl, rfl⟩

/-- Outside `Data` a byte leaves the buffer alone. -/
theorem receiveByte_buf {b : Byte} {s t : State} (hf : s.fsm ≠ .data)
    (h : receiveByte b s = .next t) : t.buf = s.buf := by
  unfold receiveByte at h
  cases hs : s.fsm <;> simp only [hs] at h
  case data => exact absurd hs hf
  case crc1 =>
    obtain ⟨hframe, -, -⟩ := handle_frame h
    rw [hframe]
    rfl
  case len1 =>
    cases h
    unfold checkLength
    split_ifs <;> rfl
  all_goals
    cases h
    rfl

/-- A byte writes `idle` only by setting it, when it completes a FINISH (R142). -/
theorem receiveByte_idle {b : Byte} {s t : State} (h : receiveByte b s = .next t)
    (hne : t.idle ≠ s.idle) : s.fType = s.cfg.tFinish ∧ t.idle = true := by
  by_cases hf : s.fsm = .crc1
  · simp only [receiveByte, hf] at h
    obtain ⟨-, -, hidle⟩ := handle_frame h
    exact hidle hne
  · exact absurd (receiveByte_flags hf h).1 hne

/-! ### The whole table -/

/-- No meaning reads on in the input stream. -/
theorem exec_inputs {i : Instr} {s t : State} (h : exec i s = .next t) : t.inputs = s.inputs := by
  cases i with
  | rxByte b => exact (receiveByte_received h).inputs
  | dataInbound _ _ _ | finishInbound _ _ _ | otherInbound _ _ _ _ | overlengthInbound _ _ _ =>
    exact (receiveBytes_received h).inputs
  | poll now | requestDataOutbound now | ackOutbound now =>
    cases h
    exact (polled_pollStep now s).inputs
  | setIdle1 | setIdle0 | sendEnd | reset | endOutbound =>
    cases h
    rfl

/-- The invariant speaks of neither flags, sequence nor outputs, and the timer holds a tick. -/
theorem Polled.inv {now : Nat} {s t : State} (h : Polled now s t) (hs : s.Inv) : t.Inv := by
  obtain ⟨hframe, htime, -⟩ := h
  obtain ⟨hlen, hidx, hwf, hbound, hlast⟩ := hs
  have htick : t.lastRequestTime < 2 ^ s.cfg.tickW := by
    rcases htime with htime | htime <;> rw [htime]
    · exact hlast
    · exact tickOf_lt s.cfg now
  rw [hframe]
  exact ⟨hlen, hidx, hwf, hbound, htick⟩

/-- From a state that meets the invariant every instruction has a next state, which meets it too. -/
theorem exec_keeps_inv {s : State} (i : Instr) (h : s.Inv) : ∃ t, exec i s = .next t ∧ t.Inv := by
  cases i with
  | rxByte b => exact receiveByte_keeps_inv b h
  | dataInbound _ _ _ | finishInbound _ _ _ | otherInbound _ _ _ _ | overlengthInbound _ _ _ =>
    exact receiveBytes_keeps_inv _ h
  | poll now | requestDataOutbound now | ackOutbound now =>
    exact ⟨_, rfl, (polled_pollStep now s).inv h⟩
  | setIdle1 | setIdle0 | sendEnd | endOutbound => exact ⟨_, rfl, h⟩
  | reset =>
    obtain ⟨-, -, hwf, hbound, hlast⟩ := h
    exact ⟨_, rfl, by simp [ParserState.inBody], by simp, hwf, hbound, hlast⟩

end Sys2Proof.Machine

open Sys2Proof Sys2Proof.Machine

/-- Settles O38: taking a transaction off the stream keeps the invariant, and so does running it. -/
theorem stepKeepsInvariant : Obligations.StepKeepsInvariant := by
  intro s t hs h
  obtain ⟨-, ⟨-, rfl⟩ | ⟨i, rest, -, hi⟩⟩ := step_eq_next h
  · exact hs
  · have hrest : (s.setInputs rest).Inv := hs
    obtain ⟨u, hu, hinv⟩ := exec_keeps_inv i hrest
    rw [hu] at hi
    cases hi
    exact hinv

/-- Settles O5. -/
theorem configurationIsConstant : Obligations.ConfigurationIsConstant := by
  refine ⟨fun s t h => ?_, fun i s t h => ⟨exec_cfg h, exec_inputs h⟩⟩
  obtain ⟨-, ⟨-, rfl⟩ | ⟨i, rest, -, hi⟩⟩ := step_eq_next h
  · rfl
  · rw [exec_cfg hi, State.setInputs_cfg]

/-- Settles O39, each clause by what its kind of step may change. -/
theorem writersOfEachField : Obligations.WritersOfEachField := by
  intro s t
  refine ⟨fun b h => ?rxByte, fun now h => ?poll, fun h => ?setIdle1, fun h => ?setIdle0,
    fun h => ?sendEnd, fun h => ?reset, fun i hi h => ?inbound, fun i now hi h => ?outbound,
    fun h => ?endRow⟩
  case rxByte =>
    refine ⟨(receiveByte_received h).1, receiveByte_idle h, fun hbuf => ?_, fun hack => ?_⟩
    · by_contra hf
      exact hbuf (receiveByte_buf hf h)
    · by_contra hf
      exact hack (receiveByte_flags hf h).2
  case poll =>
    cases h
    exact (polled_pollStep now s).1
  case inbound =>
    rcases hi with ⟨_, _, _, rfl⟩ | ⟨_, _, _, rfl⟩ | ⟨_, _, _, _, rfl⟩ | ⟨_, _, _, rfl⟩
    all_goals exact (receiveBytes_received h).1
  case outbound =>
    rcases hi with rfl | rfl
    all_goals
      cases h
      exact (polled_pollStep now s).1
  case reset =>
    cases h
    exact ⟨rfl, rfl, rfl⟩
  case setIdle1 | setIdle0 | sendEnd | endRow =>
    cases h
    rfl

/-- Settles O36: a poll does not write `idle`, so one that ends idle began idle, where it only
clears the decision. -/
theorem idleLeavesNoDecision : Obligations.IdleLeavesNoDecision := by
  refine fun s t => ⟨fun now h hidle => ?_, fun h => ?_⟩
  · cases h
    rw [pollStep_idle ((polled_pollStep now s).idle.symm.trans hidle)]
  · cases h
    exact ⟨rfl, rfl⟩

end

section
/-! The initial request along a run without `RESET` (spec/10_state.md R26, R32 (e)). -/

namespace Sys2Proof.Machine

/-- The initial request was due before, and the outputs since then hold no frame of type `type`. -/
def StillDue (type : Byte) (s t : State) : Prop :=
  s.reqDue = true ∧ ∃ es, t.outputs = s.outputs ++ es ∧ ∀ f, Output.tx f ∈ es → f[2]? ≠ some type

theorem StillDue.trans {type : Byte} {s t u : State} (h : StillDue type s t)
    (k : StillDue type t u) : StillDue type s u := by
  obtain ⟨hdue, es, hout, hes⟩ := h
  obtain ⟨-, fs, kout, kfs⟩ := k
  refine ⟨hdue, es ++ fs, by rw [kout, hout, List.append_assoc], fun f hf => ?_⟩
  rcases List.mem_append.mp hf with hf | hf
  · exact hes f hf
  · exact kfs f hf

theorem stillDue_of_outputs_eq {type : Byte} {s t : State} (hdue : s.reqDue = true)
    (hout : t.outputs = s.outputs) : StillDue type s t := ⟨hdue, [], by simp [hout], by simp⟩

/-- The type byte of a serialized frame follows the two start markers (R70). -/
theorem serialize_type (c : Config) (type : Byte) (seq : U16) (payload : List Byte) :
    (serialize c type seq payload)[2]? = some type := rfl

theorem Received.stillDue {type : Byte} {s t : State} (h : Received s t) (ht : t.reqDue = true) :
    StillDue type s t := by
  obtain ⟨hframe, es, hout, hes⟩ := h
  have hreq : t.reqDue = s.reqDue := by rw [hframe]
  exact ⟨hreq ▸ ht, es, hout, fun f hf => absurd hf (hes f)⟩

/-- A poll that leaves the request due began idle, so it sent nothing. -/
theorem pollStep_stillDue {type : Byte} {now : Nat} {s : State}
    (ht : (pollStep now s).reqDue = true) : StillDue type s (pollStep now s) := by
  obtain ⟨-, -, hdue⟩ := polled_pollStep now s
  exact stillDue_of_outputs_eq (hdue ht) (by rw [pollStep_idle (idle_of_pollStep_reqDue ht)])

/-- An END frame is no REQUEST: their type codes differ (R8). -/
theorem emitEnd_stillDue {s : State} (hwf : s.cfg.wf = true) (hs : s.reqDue = true) :
    StillDue s.cfg.tRequestData s (emitEnd s) := by
  obtain ⟨⟨-, -, -, hne, -⟩, -⟩ := s.cfg.wf_iff.mp hwf
  refine ⟨hs, [.tx (endFrame s.cfg s.expectedSequence)], rfl, fun f hf => ?_⟩
  obtain rfl : f = endFrame s.cfg s.expectedSequence := by simpa using hf
  rw [endFrame, serialize_type]
  simpa using hne.symm

theorem exec_stillDue {i : Instr} {s t : State} (hwf : s.cfg.wf = true) (hi : i ≠ .reset)
    (h : exec i s = .next t) (ht : t.reqDue = true) : StillDue s.cfg.tRequestData s t := by
  cases i with
  | rxByte b => exact (receiveByte_received h).stillDue ht
  | dataInbound _ _ _ | finishInbound _ _ _ | otherInbound _ _ _ _ | overlengthInbound _ _ _ =>
    exact (receiveBytes_received h).stillDue ht
  | poll now | requestDataOutbound now | ackOutbound now =>
    cases h
    exact pollStep_stillDue ht
  | sendEnd | endOutbound =>
    cases h
    exact emitEnd_stillDue hwf ht
  | setIdle1 | setIdle0 =>
    cases h
    exact ⟨ht, _, rfl, by simp⟩
  | reset => exact absurd rfl hi

theorem execAll_stillDue {is : List Instr} {s t : State} (hwf : s.cfg.wf = true)
    (his : Instr.reset ∉ is) (h : execAll is s = .next t) (ht : t.reqDue = true) :
    StillDue s.cfg.tRequestData s t := by
  induction is generalizing s with
  | nil =>
    cases h
    exact stillDue_of_outputs_eq ht rfl
  | cons i is ih =>
    obtain ⟨hi, his⟩ := not_or.mp (mt List.mem_cons.mpr his)
    obtain ⟨u, hu, h⟩ := andThen_eq_next.mp h
    have hcfg : u.cfg = s.cfg := exec_cfg hu
    have hrest : StillDue s.cfg.tRequestData u t := hcfg ▸ ih (hcfg ▸ hwf) his h
    exact (exec_stillDue hwf (Ne.symm hi) hu hrest.1).trans hrest

end Sys2Proof.Machine

open Sys2Proof Sys2Proof.Machine

/-- Settles O42, by induction on the run. -/
theorem requestDueMeansNoRequestYet : Obligations.RequestDueMeansNoRequestYet :=
  fun _ _ _ hwf his h ht => execAll_stillDue hwf his h ht

end

section
/-! The fields that `RESET` leaves unspecified cannot be observed (spec/10_state.md R33): two
machines that agree on everything a rule may still read go on agreeing. -/

namespace Sys2Proof.Machine

/-- Two buffers agree on their first `n` bytes. -/
def Memory.AgreeBelow (n : Nat) (m m' : Memory) : Prop := ∀ k < n, m.read k = m'.read k

theorem Memory.AgreeBelow.write {n : Nat} {m m' : Memory} (h : Memory.AgreeBelow n m m')
    (hm : m.Sorted) (hm' : m'.Sorted) (b : Byte) :
    Memory.AgreeBelow (n + 1) (m.write n b) (m'.write n b) := by
  intro k hk
  rw [Memory.read_write hm, Memory.read_write hm']
  split_ifs
  · rfl
  · exact h k (by omega)

/-- The frame in the registers is the same: its header fields and its payload in the buffer. -/
def SameFrame (s s' : State) : Prop :=
  s.fType = s'.fType ∧ s.fSeq = s'.fSeq ∧ s.fLen = s'.fLen
    ∧ Memory.AgreeBelow s.fLen.toNat s.buf s'.buf

/-- The parser's registers agree as far as the frame in progress has written them (R113 to R120). -/
def RegistersAgree (s s' : State) : Prop :=
  match s.fsm with
  | .seekSof0 | .seekSof1 | .type => True
  | .seq0 => s.fType = s'.fType
  | .seq1 => s.fType = s'.fType ∧ lo8 s.fSeq = lo8 s'.fSeq
  | .len0 => s.fType = s'.fType ∧ s.fSeq = s'.fSeq
  | .len1 => s.fType = s'.fType ∧ s.fSeq = s'.fSeq ∧ lo8 s.fLen = lo8 s'.fLen
  | .data => s.fType = s'.fType ∧ s.fSeq = s'.fSeq ∧ s.fLen = s'.fLen ∧ s.dataIdx = s'.dataIdx
      ∧ Memory.AgreeBelow s.dataIdx.toNat s.buf s'.buf
  | .crc0 => SameFrame s s'
  | .crc1 => SameFrame s s' ∧ lo8 s.fCrc = lo8 s'.fCrc

/-- Two states agree on every field that R230 specifies, on the parser's registers as far as they
are written, and on the timer unless the initial request is still due, which is sent without reading it
(R162). -/
structure Alike (s s' : State) : Prop where
  cfg : s.cfg = s'.cfg
  expectedSequence : s.expectedSequence = s'.expectedSequence
  idle : s.idle = s'.idle
  pendingAck : s.pendingAck = s'.pendingAck
  reqDue : s.reqDue = s'.reqDue
  fsm : s.fsm = s'.fsm
  outputs : s.outputs = s'.outputs
  lastRequestTime : s.reqDue = false → s.lastRequestTime = s'.lastRequestTime
  registers : RegistersAgree s s'

/-! ### The shared operations -/

theorem Alike.setPending {s s' : State} (h : Alike s s') (v : Option Decision) :
    Alike (s.setPending v) (s'.setPending v) := { h with pendingAck := rfl }

theorem Alike.setIdle {s s' : State} (h : Alike s s') (v : Bool) :
    Alike (s.setIdle v) (s'.setIdle v) := { h with idle := rfl }

theorem Alike.setExpected {s s' : State} (h : Alike s s') (v : U16) :
    Alike (s.setExpected v) (s'.setExpected v) := { h with expectedSequence := rfl }

theorem Alike.emit {s s' : State} (h : Alike s s') (e : Output) :
    Alike (s.emit e) (s'.emit e) :=
  { h with outputs := congrArg (· ++ [e]) h.outputs }

theorem Alike.emitRequest {s s' : State} (h : Alike s s') (now : Nat) :
    Alike (emitRequest now s) (emitRequest now s') := by
  rw [emitRequest_eq, emitRequest_eq]
  exact { h with
    reqDue := rfl
    outputs := by rw [h.outputs, h.cfg, h.expectedSequence]
    lastRequestTime := fun _ => by rw [h.cfg] }

/-! ### The Poll Driver -/

/-- The timer is read only when the initial request is not due (R162). -/
theorem Alike.requestDue_eq {s s' : State} (h : Alike s s') (now : Nat) :
    requestDue now s = requestDue now s' := by
  unfold requestDue
  cases hdue : s.reqDue with
  | true => simp [← h.reqDue, hdue]
  | false => rw [← h.reqDue, hdue, h.cfg, h.lastRequestTime hdue]

theorem Alike.timedRequest {s s' : State} (h : Alike s s') (now : Nat) :
    Alike (timedRequest now s) (timedRequest now s') := by
  unfold Machine.timedRequest
  rw [← h.requestDue_eq now]
  split_ifs
  · exact h.emitRequest now
  · exact h

theorem Alike.advanceSequence {s s' : State} (h : Alike s s') (now : Nat) (d : Decision) :
    Alike (advanceSequence now d s) (advanceSequence now d s') := by
  unfold Machine.advanceSequence
  rw [← h.expectedSequence, ← h.idle]
  split_ifs
  · exact h.setExpected _
  · exact (h.setExpected _).emitRequest now
  · exact h

theorem Alike.dispatchDecision {s s' : State} (h : Alike s s') (now : Nat) :
    Alike (dispatchDecision now s) (dispatchDecision now s') := by
  unfold Machine.dispatchDecision
  rw [← h.pendingAck, ← h.cfg]
  split
  · exact h
  · exact ((h.emit _).advanceSequence now _).setPending none

theorem Alike.pollStep {s s' : State} (h : Alike s s') (now : Nat) :
    Alike (pollStep now s) (pollStep now s') := by
  unfold Machine.pollStep
  rw [← h.idle]
  split_ifs
  · exact h.setPending none
  · exact (h.timedRequest now).dispatchDecision now

/-! ### The Message Handler -/

/-- The record is read from the payload alone (R145). -/
theorem Alike.acceptRecord {s s' t t' : State} (h : Alike s s')
    (hcap : s.cfg.dataLen ≤ s.cfg.cap) (hbuf : Memory.AgreeBelow s.cfg.dataLen s.buf s'.buf)
    (ht : acceptRecord s = .next t) (ht' : acceptRecord s' = .next t') : Alike t t' := by
  have hrec : s.buf.readBytes 1 (s.cfg.dataLen - 1) = s'.buf.readBytes 1 (s.cfg.dataLen - 1) :=
    Memory.readBytes_congr _ _ fun k _ _ => hbuf k (by omega)
  rw [acceptRecord_next hcap] at ht
  rw [acceptRecord_next (h.cfg ▸ hcap)] at ht'
  cases ht
  cases ht'
  exact { h with
    pendingAck := by rw [h.expectedSequence]
    outputs := by rw [h.outputs, ← h.cfg, hrec] }

theorem Alike.handleData {s s' t t' : State} (h : Alike s s') (hframe : SameFrame s s')
    (hcap : s.fLen.toNat ≤ s.cfg.cap) (ht : handleData s = .next t)
    (ht' : handleData s' = .next t') : Alike t t' := by
  obtain ⟨-, hseq, hlen, hbuf⟩ := hframe
  unfold Machine.handleData at ht ht'
  rw [← hlen, ← hseq, ← h.cfg, ← h.expectedSequence] at ht'
  split_ifs at ht ht' with hlength
  · cases ht
    cases ht'
    exact h.setPending _
  · rw [not_not.mp hlength] at hcap hbuf
    exact h.acceptRecord hcap hbuf ht ht'
  all_goals
    cases ht
    cases ht'
    exact h.setPending _

/-- Two machines that dispatch the same frame dispatch it alike (R140 to R143). -/
theorem Alike.handle {s s' t t' : State} (h : Alike s s') (hframe : SameFrame s s')
    (hcrc : s.fCrc = s'.fCrc) (hcap : s.fLen.toNat ≤ s.cfg.cap)
    (ht : handle s = .next t) (ht' : handle s' = .next t') : Alike t t' := by
  have ⟨htype, hseq, hlen, hbuf⟩ := hframe
  have hcap' : s'.fLen.toNat ≤ s'.cfg.cap := hlen ▸ h.cfg ▸ hcap
  have hpayload : s.buf.readBytes 0 s.fLen.toNat = s'.buf.readBytes 0 s.fLen.toNat :=
    Memory.readBytes_congr _ _ fun k _ _ => hbuf k (by omega)
  unfold Machine.handle at ht ht'
  rw [memRead_within (by omega)] at ht ht'
  simp only at ht ht'
  rw [← hlen, ← htype, ← hseq, ← hcrc, ← h.cfg, ← hpayload] at ht'
  split_ifs at ht ht'
  · cases ht
    cases ht'
    exact h.setPending _
  · cases ht
    cases ht'
    exact ((h.setIdle true).setPending none).emit _
  · cases ht
    cases ht'
    exact h
  · exact h.handleData hframe hcap ht ht'

/-! ### The parser -/

/-- The length check sees the same length (R117). -/
theorem Alike.parseLen1 {s s' t t' : State} {b : Byte} (h : Alike s s') (hf : s.fsm = .len1)
    (ht : parseLen1 b s = .next t) (ht' : parseLen1 b s' = .next t') : Alike t t' := by
  have hreg := h.registers
  simp only [RegistersAgree, hf] at hreg
  obtain ⟨htype, hseq, hlo⟩ := hreg
  have hlen : setHi8 s.fLen b = setHi8 s'.fLen b := congrArg (join16 b) hlo
  cases ht
  cases ht'
  unfold checkLength
  rw [State.setFLen_cfg, State.setFLen_cfg, State.setFLen_fLen, State.setFLen_fLen, ← h.cfg, ← hlen]
  split_ifs with _ hzero
  · exact { h with fsm := rfl, registers := trivial }
  · have hnone : Memory.AgreeBelow (setHi8 s.fLen b).toNat s.buf s'.buf := by
      simp [Memory.AgreeBelow, hzero]
    exact { h with fsm := rfl, registers := ⟨htype, hseq, rfl, hnone⟩ }
  · have hnone : Memory.AgreeBelow 0 s.buf s'.buf := by simp [Memory.AgreeBelow]
    exact { h with fsm := rfl, registers := ⟨htype, hseq, rfl, rfl, hnone⟩ }

/-- A payload byte goes to the same index of both buffers (R118). -/
theorem Alike.parseData {s s' t t' : State} {b : Byte} (h : Alike s s') (hs : s.Inv) (hs' : s'.Inv)
    (hf : s.fsm = .data) (ht : parseData b s = .next t) (ht' : parseData b s' = .next t') :
    Alike t t' := by
  have hreg := h.registers
  simp only [RegistersAgree, hf] at hreg
  obtain ⟨htype, hseq, hlen, hidx, hbuf⟩ := hreg
  obtain ⟨-, hlt, hwf, -, -⟩ := hs
  obtain ⟨-, -, hwf', -, -⟩ := hs'
  have hnext : (s.dataIdx + 1).toNat = s.dataIdx.toNat + 1 := by
    have := hlt hf
    bv_omega
  have hwritten : Memory.AgreeBelow (s.dataIdx + 1).toNat (s.buf.write s.dataIdx.toNat b)
      (s'.buf.write s.dataIdx.toNat b) := by
    rw [hnext]
    exact hbuf.write ((Memory.wf_iff _).mp hwf).1 ((Memory.wf_iff _).mp hwf').1 b
  obtain ⟨_, hu, ht⟩ := andThen_eq_next.mp ht
  obtain ⟨_, hu', ht'⟩ := andThen_eq_next.mp ht'
  obtain ⟨-, rfl⟩ := memWrite_eq_next.mp hu
  obtain ⟨-, rfl⟩ := memWrite_eq_next.mp hu'
  cases ht
  cases ht'
  unfold advanceData
  rw [State.setBuf_dataIdx, State.setBuf_dataIdx, State.setBuf_fLen, State.setBuf_fLen, ← hidx,
    ← hlen]
  split_ifs with hlast
  · exact { h with fsm := rfl, registers := ⟨htype, hseq, hlen, hlast ▸ hwritten⟩ }
  · exact { h with fsm := rfl, registers := ⟨htype, hseq, hlen, rfl, hwritten⟩ }

/-- The completed frame is the same, and the handler starts from states that are alike (R120). -/
theorem Alike.parseCrc1 {s s' t t' : State} {b : Byte} (h : Alike s s') (hs : s.Inv)
    (hf : s.fsm = .crc1) (ht : parseCrc1 b s = .next t) (ht' : parseCrc1 b s' = .next t') :
    Alike t t' := by
  have hreg := h.registers
  simp only [RegistersAgree, hf] at hreg
  obtain ⟨hframe, hlo⟩ := hreg
  obtain ⟨hcap, -⟩ := hs
  have hready : Alike ((s.setFCrc (setHi8 s.fCrc b)).setFsm .seekSof0)
      ((s'.setFCrc (setHi8 s'.fCrc b)).setFsm .seekSof0) :=
    { h with fsm := rfl, registers := trivial }
  exact hready.handle hframe (congrArg (join16 b) hlo)
    (hcap (by simp [hf, ParserState.inBody])) ht ht'

theorem Alike.receiveByte {s s' t t' : State} {b : Byte} (h : Alike s s') (hs : s.Inv)
    (hs' : s'.Inv) (ht : receiveByte b s = .next t) (ht' : receiveByte b s' = .next t') :
    Alike t t' := by
  have hreg := h.registers
  unfold Machine.receiveByte at ht ht'
  rw [← h.fsm] at ht'
  unfold RegistersAgree at hreg
  cases hf : s.fsm <;> simp only [hf] at ht ht' hreg
  case len1 => exact h.parseLen1 hf ht ht'
  case data => exact h.parseData hs hs' hf ht ht'
  case crc1 => exact h.parseCrc1 hs hf ht ht'
  all_goals
    cases ht
    cases ht'
  case seekSof0 | seekSof1 =>
    rw [← h.cfg]
    split_ifs <;> exact { h with fsm := rfl, registers := trivial }
  case type => exact { h with fsm := rfl, registers := rfl }
  case seq0 => exact { h with fsm := rfl, registers := ⟨hreg, by simp [setLo8]⟩ }
  case seq1 =>
    obtain ⟨htype, hseq⟩ := hreg
    exact { h with fsm := rfl, registers := ⟨htype, congrArg (join16 b) hseq⟩ }
  case len0 =>
    obtain ⟨htype, hseq⟩ := hreg
    exact { h with fsm := rfl, registers := ⟨htype, hseq, by simp [setLo8]⟩ }
  case crc0 => exact { h with fsm := rfl, registers := ⟨hreg, by simp [setLo8]⟩ }

theorem Alike.receiveBytes {s s' t t' : State} {bs : List Byte} (h : Alike s s') (hs : s.Inv)
    (hs' : s'.Inv) (ht : receiveBytes bs s = .next t) (ht' : receiveBytes bs s' = .next t') :
    Alike t t' := by
  induction bs generalizing s s' with
  | nil =>
    cases ht
    cases ht'
    exact h
  | cons b bs ih =>
    obtain ⟨u, hu, hinv⟩ := receiveByte_keeps_inv b hs
    obtain ⟨u', hu', hinv'⟩ := receiveByte_keeps_inv b hs'
    rw [Machine.receiveBytes, hu] at ht
    rw [Machine.receiveBytes, hu'] at ht'
    exact ih (h.receiveByte hs hs' hu hu') hinv hinv' ht ht'

/-! ### The whole table -/

theorem Alike.exec {i : Instr} {s s' t t' : State} (h : Alike s s') (hs : s.Inv) (hs' : s'.Inv)
    (ht : exec i s = .next t) (ht' : exec i s' = .next t') : Alike t t' := by
  cases i with
  | rxByte b => exact h.receiveByte hs hs' ht ht'
  | dataInbound _ _ _ | finishInbound _ _ _ | otherInbound _ _ _ _ | overlengthInbound _ _ _ =>
    simp only [Machine.exec, execDataInbound, execFinishInbound, execOtherInbound,
      execOverlengthInbound, ← h.cfg] at ht ht'
    exact h.receiveBytes hs hs' ht ht'
  | poll now | requestDataOutbound now | ackOutbound now =>
    cases ht
    cases ht'
    exact h.pollStep now
  | setIdle1 =>
    cases ht
    cases ht'
    exact ((h.setIdle true).setPending none).emit _
  | setIdle0 =>
    cases ht
    cases ht'
    exact (h.setIdle false).emit _
  | sendEnd | endOutbound =>
    cases ht
    cases ht'
    unfold emitEnd
    rw [← h.cfg, ← h.expectedSequence]
    exact h.emit _
  | reset =>
    cases ht
    cases ht'
    exact { h with
      expectedSequence := rfl, idle := rfl, pendingAck := rfl, reqDue := rfl, fsm := rfl
      lastRequestTime := by simp, registers := trivial }

/-- Both machines complete every run and stay alike. -/
theorem Alike.execAll {s s' : State} (is : List Instr) (h : Alike s s') (hs : s.Inv)
    (hs' : s'.Inv) : ∃ t t', execAll is s = .next t ∧ execAll is s' = .next t' ∧ Alike t t' := by
  induction is generalizing s s' with
  | nil => exact ⟨s, s', rfl, rfl, h⟩
  | cons i is ih =>
    obtain ⟨u, hu, hinv⟩ := exec_keeps_inv i hs
    obtain ⟨u', hu', hinv'⟩ := exec_keeps_inv i hs'
    rw [Machine.execAll, Machine.execAll, hu, hu']
    exact ih (h.exec hs hs' hu hu') hinv hinv'

end Sys2Proof.Machine

open Sys2Proof Sys2Proof.Machine

/-- Settles O43: with the initial request due and no frame in progress, nothing unspecified is among
what `Alike` asks for. -/
theorem unspecifiedFieldsAreUnobservable : Obligations.UnspecifiedFieldsAreUnobservable := by
  intro is s s' hs hs' hdue hfsm heq
  have halike : Alike s s' := by
    rw [heq]
    exact {
      cfg := rfl, expectedSequence := rfl, idle := rfl, pendingAck := rfl, reqDue := rfl, fsm := rfl
      outputs := rfl
      lastRequestTime := by simp [hdue]
      registers := by simp [RegistersAgree, hfsm] }
  obtain ⟨t, t', ht, ht', h⟩ := halike.execAll is hs hs'
  exact ⟨t, t', ht, ht', h.outputs.symm, h.expectedSequence.symm, h.idle.symm, h.pendingAck.symm,
    h.reqDue.symm, h.fsm.symm⟩

end

/-! Proofs of the encoding statements (spec/30_encoding.md). -/

section
/-! The decoder accepts exactly the encodings of well-formed instructions: for each part of the
decoder, the byte strings it accepts and what it reads from them, as one equivalence. Both
directions of the round trip follow. -/

namespace Sys2Proof.Machine

@[simp] theorem wire16_join16 (h l : Byte) : wire16 (join16 h l) = [l, h] := by simp [wire16]

theorem lengthField_eq_of_length {payload : List Byte} {len : U16}
    (h : payload.length = len.toNat) : lengthField payload = len := by simp [lengthField, h]

/-- A frame is its header, its payload and its CRC (R70). -/
theorem frameBytes_append (c : Config) (type : Byte) (seq : U16) (payload : List Byte) (crc : U16)
    (rest : List Byte) :
    frameBytes c type seq payload crc ++ rest
      = headerBytes c type seq (lengthField payload) ++ (payload ++ wire16 crc ++ rest) := by
  simp [frameBytes, headerBytes]

end Sys2Proof.Machine

namespace Sys2Proof

open Machine

theorem takeBytes_eq_ok_iff {n : Nat} {bs as rest : List Byte} :
    takeBytes n bs = .ok (as, rest) ↔ as.length = n ∧ as ++ rest = bs := by
  unfold takeBytes
  constructor
  · intro h
    split_ifs at h with hn
    cases h
    exact ⟨List.length_take_of_le hn, List.take_append_drop n bs⟩
  · rintro ⟨rfl, rfl⟩
    simp

/-! ### Ticks -/

/-- The bytes of a tick hold every value of `TICK_W` bits. -/
theorem Config.two_pow_tickW_le (c : Config) : 2 ^ c.tickW ≤ 256 ^ c.tickBytes := by
  rw [show 256 = 2 ^ 8 from rfl, ← pow_mul, Config.tickBytes]
  exact Nat.pow_le_pow_right (by decide) (by omega)

theorem ofLeBytes_encodeTick {c : Config} {now : Nat} (h : c.isTick now = true) :
    ofLeBytes (encodeTick c now) = now :=
  ofLeBytes_leBytes _ _ ((of_decide_eq_true h).trans_le c.two_pow_tickW_le)

theorem encodeTick_ofLeBytes {c : Config} {bs : List Byte} (h : bs.length = c.tickBytes) :
    encodeTick c (ofLeBytes bs) = bs := by
  rw [encodeTick, ← h, leBytes_ofLeBytes]

/-- A tick operand is read from the bytes that code it, and from no others. -/
theorem decodeTick_eq_ok_iff {c : Config} {mk : Nat → Instr} {bs rest : List Byte} {i : Instr} :
    decodeTick c mk bs = .ok (i, rest)
      ↔ ∃ now, c.isTick now = true ∧ i = mk now ∧ encodeTick c now ++ rest = bs := by
  unfold decodeTick
  constructor
  · intro h
    cases htake : takeBytes c.tickBytes bs with
    | error r => simp [htake] at h
    | ok x =>
      obtain ⟨t, tail⟩ := x
      obtain ⟨hlen, rfl⟩ := takeBytes_eq_ok_iff.mp htake
      simp only [htake] at h
      split_ifs at h with htick
      cases h
      exact ⟨ofLeBytes t, htick, rfl, by rw [encodeTick_ofLeBytes hlen]⟩
  · rintro ⟨now, htick, rfl, rfl⟩
    have htake : takeBytes c.tickBytes (encodeTick c now ++ rest) = .ok (encodeTick c now, rest) :=
      takeBytes_eq_ok_iff.mpr ⟨leBytes_length _ _, rfl⟩
    simp only [htake, ofLeBytes_encodeTick htick, if_pos htick]

/-! ### Operands of one byte -/

theorem decodeRx_eq_ok_iff {bs rest : List Byte} {i : Instr} :
    decodeRx bs = .ok (i, rest) ↔ ∃ b, i = .rxByte b ∧ b :: rest = bs := by
  cases bs with
  | nil => simp [decodeRx]
  | cons b bs => simp [decodeRx, eq_comm]

theorem decodeIdle_eq_ok_iff {bs rest : List Byte} {i : Instr} :
    decodeIdle bs = .ok (i, rest)
      ↔ i = .setIdle0 ∧ 0 :: rest = bs ∨ i = .setIdle1 ∧ 1 :: rest = bs := by
  cases bs with
  | nil => simp [decodeIdle]
  | cons v bs =>
    constructor
    · intro h
      simp only [decodeIdle] at h
      split_ifs at h with h0 h1
      · cases h
        exact .inl ⟨rfl, by rw [h0]⟩
      · cases h
        exact .inr ⟨rfl, by rw [h1]⟩
    · rintro (⟨rfl, h⟩ | ⟨rfl, h⟩)
      all_goals
        cases h
        rfl

/-! ### Inbound frames -/

theorem inboundRow_tFinish (c : Config) (seq : U16) (payload : List Byte) (crc : U16) :
    inboundRow c c.tFinish seq payload crc = .finishInbound seq payload crc := if_pos rfl

theorem inboundRow_tData {c : Config} (h : c.tData ≠ c.tFinish) (seq : U16) (payload : List Byte)
    (crc : U16) : inboundRow c c.tData seq payload crc = .dataInbound seq payload crc := by
  simp [inboundRow, h]

theorem inboundRow_other {c : Config} {type : Byte} (hdata : type ≠ c.tData)
    (hfinish : type ≠ c.tFinish) (seq : U16) (payload : List Byte) (crc : U16) :
    inboundRow c type seq payload crc = .otherInbound type seq payload crc := by
  simp [inboundRow, hdata, hfinish]

/-- The row that the type byte selects is well-formed, because the selection is the row's own check
of its type (R75). -/
theorem inboundRow_wf {c : Config} {payload : List Byte} (h : c.isPayload payload = true)
    (type : Byte) (seq crc : U16) : (inboundRow c type seq payload crc).wf c = true := by
  unfold inboundRow
  split_ifs with hfinish hdata
  · exact h
  · exact h
  · simp [Instr.wf, h, hfinish, hdata]

/-- Whichever row the type byte selects, its bytes are the frame's. -/
theorem encode_inboundRow (c : Config) (type : Byte) (seq : U16) (payload : List Byte) (crc : U16) :
    encode c (inboundRow c type seq payload crc)
      = portFrameIn :: frameBytes c type seq payload crc := by
  unfold inboundRow
  split_ifs with hfinish hdata
  · rw [hfinish, encode]
  · rw [hdata, encode]
  · rw [encode]

theorem decodeBody_eq_ok_iff {c : Config} {type : Byte} {seq len : U16} {bs rest : List Byte}
    {i : Instr} :
    decodeBody c type seq len bs = .ok (i, rest)
      ↔ ∃ payload crc, payload.length = len.toNat ∧ i = inboundRow c type seq payload crc
        ∧ payload ++ wire16 crc ++ rest = bs := by
  unfold decodeBody
  constructor
  · intro h
    split at h
    · cases h
    next payload c0 c1 tail htake =>
      obtain ⟨hlen, rfl⟩ := takeBytes_eq_ok_iff.mp htake
      cases h
      exact ⟨payload, join16 c1 c0, hlen, rfl, by simp⟩
    · cases h
  · rintro ⟨payload, crc, hlen, rfl, rfl⟩
    have htake : takeBytes len.toNat (payload ++ wire16 crc ++ rest)
        = .ok (payload, lo8 crc :: hi8 crc :: rest) :=
      takeBytes_eq_ok_iff.mpr ⟨hlen, by simp [wire16]⟩
    simp only [htake, join16_hi8_lo8]

/-- What the decoder makes of a header: the dropped row, or a frame whose body follows (R117). -/
theorem decodeFrameIn_headerBytes (c : Config) (type : Byte) (seq len : U16) (bs : List Byte) :
    decodeFrameIn c (headerBytes c type seq len ++ bs)
      = if c.cap < len.toNat then .ok (.overlengthInbound type seq len, bs)
        else decodeBody c type seq len bs := by
  simp [headerBytes, frameHeader, wire16, decodeFrameIn]

/-- Nothing is accepted as an inbound frame but what begins with a header. -/
theorem exists_headerBytes_of_decodeFrameIn {c : Config} {bs : List Byte} {x : Instr × List Byte}
    (h : decodeFrameIn c bs = .ok x) :
    ∃ type seq len tail, bs = headerBytes c type seq len ++ tail := by
  unfold decodeFrameIn at h
  split at h
  next m0 m1 type s0 s1 l0 l1 tail =>
    split_ifs at h with hmark
    all_goals
      obtain ⟨rfl, rfl⟩ := hmark
      exact ⟨type, join16 s1 s0, join16 l1 l0, tail, by simp [headerBytes, frameHeader]⟩
  · cases h

theorem isPayload_iff_lengthField {c : Config} {payload : List Byte} {len : U16}
    (h : payload.length = len.toNat) : c.isPayload payload = true ↔ ¬ c.cap < len.toNat := by
  have hlen := len.isLt
  simp only [Config.isPayload, decide_eq_true_eq]
  omega

/-- An inbound frame is a header whose length exceeds `CAP`, or a whole frame within it. -/
theorem decodeFrameIn_eq_ok_iff {c : Config} {bs rest : List Byte} {i : Instr} :
    decodeFrameIn c bs = .ok (i, rest)
      ↔ (∃ type seq len, c.cap < len.toNat ∧ i = .overlengthInbound type seq len
          ∧ headerBytes c type seq len ++ rest = bs)
        ∨ ∃ type seq payload crc, c.isPayload payload = true
          ∧ i = inboundRow c type seq payload crc
          ∧ frameBytes c type seq payload crc ++ rest = bs := by
  constructor
  · intro h
    obtain ⟨type, seq, len, tail, rfl⟩ := exists_headerBytes_of_decodeFrameIn h
    rw [decodeFrameIn_headerBytes] at h
    split_ifs at h with hcap
    · cases h
      exact .inl ⟨type, seq, len, hcap, rfl, rfl⟩
    · obtain ⟨payload, crc, hlen, rfl, rfl⟩ := decodeBody_eq_ok_iff.mp h
      refine .inr ⟨type, seq, payload, crc, (isPayload_iff_lengthField hlen).mpr hcap, rfl, ?_⟩
      rw [frameBytes_append, lengthField_eq_of_length hlen]
  · rintro (⟨type, seq, len, hcap, rfl, rfl⟩ | ⟨type, seq, payload, crc, hpay, rfl, rfl⟩)
    · rw [decodeFrameIn_headerBytes, if_pos hcap]
    · have hlen : payload.length = (lengthField payload).toNat :=
        (lengthField_toNat (of_decide_eq_true hpay).2).symm
      rw [frameBytes_append, decodeFrameIn_headerBytes,
        if_neg ((isPayload_iff_lengthField hlen).mp hpay)]
      exact decodeBody_eq_ok_iff.mpr ⟨payload, crc, hlen, rfl, rfl⟩

/-! ### Outbound rows -/

theorem decodeFrameOut_tRequestData (c : Config) (bs : List Byte) :
    decodeFrameOut c (c.tRequestData :: bs) = decodeTick c .requestDataOutbound bs := if_pos rfl

theorem decodeFrameOut_tAck {c : Config} (h : c.tAck ≠ c.tRequestData) (bs : List Byte) :
    decodeFrameOut c (c.tAck :: bs) = decodeTick c .ackOutbound bs := by
  simp [decodeFrameOut, h]

theorem decodeFrameOut_tEnd {c : Config} (hreq : c.tEnd ≠ c.tRequestData) (hack : c.tEnd ≠ c.tAck)
    (bs : List Byte) : decodeFrameOut c (c.tEnd :: bs) = .ok (.endOutbound, bs) := by
  simp [decodeFrameOut, hreq, hack]

/-- An outbound row is read from its own bytes; the type codes differ (R8), so from no others. -/
theorem decodeFrameOut_eq_ok_iff {c : Config} {bs rest : List Byte} {i : Instr}
    (hwf : c.wf = true) :
    decodeFrameOut c bs = .ok (i, rest)
      ↔ (∃ now, c.isTick now = true ∧ i = .requestDataOutbound now
          ∧ c.tRequestData :: (encodeTick c now ++ rest) = bs)
        ∨ (∃ now, c.isTick now = true ∧ i = .ackOutbound now
          ∧ c.tAck :: (encodeTick c now ++ rest) = bs)
        ∨ i = .endOutbound ∧ c.tEnd :: rest = bs := by
  obtain ⟨⟨-, hreqAck, -, hreqEnd, -, -, -, -, hackEnd, -⟩, -⟩ := c.wf_iff.mp hwf
  constructor
  · intro h
    cases bs with
    | nil => cases h
    | cons type bs =>
      simp only [decodeFrameOut] at h
      split_ifs at h with hreq hack hend
      · obtain ⟨now, htick, rfl, rfl⟩ := decodeTick_eq_ok_iff.mp h
        exact .inl ⟨now, htick, rfl, by rw [hreq]⟩
      · obtain ⟨now, htick, rfl, rfl⟩ := decodeTick_eq_ok_iff.mp h
        exact .inr (.inl ⟨now, htick, rfl, by rw [hack]⟩)
      · cases h
        exact .inr (.inr ⟨rfl, by rw [hend]⟩)
  · rintro (⟨now, htick, rfl, rfl⟩ | ⟨now, htick, rfl, rfl⟩ | ⟨rfl, rfl⟩)
    · rw [decodeFrameOut_tRequestData]
      exact decodeTick_eq_ok_iff.mpr ⟨now, htick, rfl, rfl⟩
    · rw [decodeFrameOut_tAck hreqAck.symm]
      exact decodeTick_eq_ok_iff.mpr ⟨now, htick, rfl, rfl⟩
    · exact decodeFrameOut_tEnd hreqEnd.symm hackEnd.symm rest

/-! ### The port byte selects the part of the decoder -/

theorem decode_portPoll (c : Config) (bs : List Byte) :
    decode c (portPoll :: bs) = decodeTick c .poll bs := rfl

theorem decode_portFrameIn (c : Config) (bs : List Byte) :
    decode c (portFrameIn :: bs) = decodeFrameIn c bs := rfl

theorem decode_portFrameOut (c : Config) (bs : List Byte) :
    decode c (portFrameOut :: bs) = decodeFrameOut c bs := rfl

/-- A frame within `CAP` is read as the row its type byte selects (R70, R75). -/
theorem decode_frameBytes {c : Config} {payload : List Byte} (h : c.isPayload payload = true)
    (type : Byte) (seq crc : U16) (rest : List Byte) :
    decode c (portFrameIn :: (frameBytes c type seq payload crc ++ rest))
      = .ok (inboundRow c type seq payload crc, rest) := by
  rw [decode_portFrameIn]
  exact decodeFrameIn_eq_ok_iff.mpr (.inr ⟨type, seq, payload, crc, h, rfl, rfl⟩)

/-! ### The whole decoder -/

/-- Completeness: a well-formed instruction is read back from its own bytes. -/
theorem decode_encode_append {c : Config} {i : Instr} (hc : c.wf = true) (hi : i.wf c = true)
    (rest : List Byte) : decode c (encode c i ++ rest) = .ok (i, rest) := by
  obtain ⟨⟨-, -, -, -, -, hdataFinish, -⟩, -⟩ := c.wf_iff.mp hc
  cases i with
  | rxByte _ | setIdle1 | setIdle0 | sendEnd | reset => rfl
  | poll now =>
    rw [encode, List.cons_append, decode_portPoll]
    exact decodeTick_eq_ok_iff.mpr ⟨now, hi, rfl, rfl⟩
  | dataInbound seq payload crc =>
    rw [encode, List.cons_append, decode_frameBytes hi, inboundRow_tData hdataFinish]
  | finishInbound seq payload crc =>
    rw [encode, List.cons_append, decode_frameBytes hi, inboundRow_tFinish]
  | otherInbound type seq payload crc =>
    simp only [Instr.wf, Bool.and_eq_true, decide_eq_true_eq] at hi
    obtain ⟨⟨hpay, hdata⟩, hfinish⟩ := hi
    rw [encode, List.cons_append, decode_frameBytes hpay, inboundRow_other hdata hfinish]
  | overlengthInbound type seq len =>
    rw [encode, List.cons_append, decode_portFrameIn]
    exact decodeFrameIn_eq_ok_iff.mpr (.inl ⟨type, seq, len, of_decide_eq_true hi, rfl, rfl⟩)
  | requestDataOutbound now =>
    rw [encode, List.cons_append, decode_portFrameOut]
    exact (decodeFrameOut_eq_ok_iff hc).mpr (.inl ⟨now, hi, rfl, rfl⟩)
  | ackOutbound now =>
    rw [encode, List.cons_append, decode_portFrameOut]
    exact (decodeFrameOut_eq_ok_iff hc).mpr (.inr (.inl ⟨now, hi, rfl, rfl⟩))
  | endOutbound =>
    rw [encode, List.cons_append, decode_portFrameOut]
    exact (decodeFrameOut_eq_ok_iff hc).mpr (.inr (.inr ⟨rfl, rfl⟩))

/-- Soundness: what is read is well-formed, and its bytes are those that were read. -/
theorem wf_and_encode_append_of_decode {c : Config} {bytes rest : List Byte} {i : Instr}
    (hc : c.wf = true) (h : decode c bytes = .ok (i, rest)) :
    i.wf c = true ∧ encode c i ++ rest = bytes := by
  cases bytes with
  | nil => cases h
  | cons port bs =>
    simp only [decode] at h
    split_ifs at h with hrx hpoll hidle hend hreset hin hout
    · obtain ⟨b, rfl, rfl⟩ := decodeRx_eq_ok_iff.mp h
      exact ⟨rfl, by rw [hrx]; rfl⟩
    · obtain ⟨now, htick, rfl, rfl⟩ := decodeTick_eq_ok_iff.mp h
      exact ⟨htick, by rw [hpoll]; rfl⟩
    · obtain ⟨rfl, rfl⟩ | ⟨rfl, rfl⟩ := decodeIdle_eq_ok_iff.mp h
      all_goals exact ⟨rfl, by rw [hidle]; rfl⟩
    · cases h
      exact ⟨rfl, by rw [hend]; rfl⟩
    · cases h
      exact ⟨rfl, by rw [hreset]; rfl⟩
    · obtain ⟨type, seq, len, hcap, rfl, rfl⟩ | ⟨type, seq, payload, crc, hpay, rfl, rfl⟩ :=
        decodeFrameIn_eq_ok_iff.mp h
      · exact ⟨decide_eq_true hcap, by rw [hin]; rfl⟩
      · exact ⟨inboundRow_wf hpay type seq crc, by rw [encode_inboundRow, hin, List.cons_append]⟩
    · obtain ⟨now, htick, rfl, rfl⟩ | ⟨now, htick, rfl, rfl⟩ | ⟨rfl, rfl⟩ :=
        (decodeFrameOut_eq_ok_iff hc).mp h
      · exact ⟨htick, by rw [hout]; rfl⟩
      · exact ⟨htick, by rw [hout]; rfl⟩
      · exact ⟨rfl, by rw [hout]; rfl⟩

/-- A table word that holds an instruction's encoding under TC1 decodes to that instruction: the
zeros above it are bytes that follow. -/
theorem decodeTableWord_of_encode {nbits w : Nat} {i : Instr} (hi : i.wf Config.tc1 = true)
    (h : leBytes (nbits / 8) w = encode Config.tc1 i) : decodeTableWord nbits w = some i := by
  have htc1 : Config.tc1.wf = true := by decide
  rw [decodeTableWord, tableBytes, h, decode_encode_append htc1 hi]

end Sys2Proof

open Sys2Proof Sys2Proof.Machine

/-- Settles O6: the decoder is complete, part by part. -/
theorem decodeOfEncode : Obligations.DecodeOfEncode :=
  fun _ _ rest hc hi => decode_encode_append hc hi rest

/-- Settles O7: the decoder is sound, part by part. -/
theorem encodeOfDecode : Obligations.EncodeOfDecode :=
  fun _ _ _ _ hc h => wf_and_encode_append_of_decode hc h

/-- Settles O8: each word is its instruction's encoding, lowest byte first. -/
theorem sampleWordsDecode : Obligations.SampleWordsDecode :=
  ⟨decodeTableWord_of_encode (by decide) (by decide),
    decodeTableWord_of_encode (by decide) (by decide),
    decodeTableWord_of_encode (by decide) (by decide),
    decodeTableWord_of_encode (by decide) (by decide)⟩

/-- Settles O4: the head of a stream that decodes is no empty stream, and the decoder accepts only
well-formed instructions. -/
theorem stepRunsDecodedInstruction : Obligations.StepRunsDecodedInstruction := by
  intro s hwf
  refine ⟨fun i rest h => ?decoded, fun hempty => ?empty, fun why hne h => ?undecodable⟩
  case decoded =>
    have hne : s.inputs ≠ [] := by
      intro hempty
      rw [hempty] at h
      cases h
    refine ⟨(wf_and_encode_append_of_decode hwf h).1, ?_⟩
    simp only [step, fetch, if_pos hwf, if_neg hne, h]
    rfl
  case empty => rw [step, if_pos hwf, if_pos hempty]
  case undecodable => simp only [step, fetch, if_pos hwf, if_neg hne, h]

/-- Settles O26: each row is a byte burst, which is a run of `RX_BYTE` events. -/
theorem inboundRowsAreByteEvents : Obligations.InboundRowsAreByteEvents := by
  intro s type seq crc len payload
  simp only [execAll_map_rxByte]
  exact ⟨rfl, rfl, rfl, rfl⟩

end

section
/-! Which outputs an instruction can emit (spec/30_encoding.md R76, R77, R80). -/

namespace Sys2Proof.Machine

/-- The frames that a poll may transmit (R76, R77): a REQUEST, and an ACK with either status. -/
def PollFrame (c : Config) (f : List Byte) : Prop :=
  ∃ q, f = serialize c c.tRequestData q [] ∨ f = serialize c c.tAck q [0x00]
    ∨ f = serialize c c.tAck q [0x01]

theorem pollFrame_requestFrame (c : Config) (seq : U16) : PollFrame c (requestFrame c seq) :=
  ⟨seq, .inl rfl⟩

theorem pollFrame_ackFrame (c : Config) (d : Decision) : PollFrame c (ackFrame c d) := by
  obtain ⟨status, seq⟩ := d
  cases status with
  | ok => exact ⟨seq, .inr (.inl rfl)⟩
  | error => exact ⟨seq, .inr (.inr rfl)⟩

/-- `es` holds transmissions of poll frames and nothing else. -/
def PollOutputs (c : Config) (es : List Output) : Prop := ∀ e ∈ es, ∃ f, e = .tx f ∧ PollFrame c f

theorem PollOutputs.append {c : Config} {es fs : List Output} (h : PollOutputs c es)
    (k : PollOutputs c fs) : PollOutputs c (es ++ fs) := by
  intro e he
  rcases List.mem_append.mp he with he | he
  · exact h e he
  · exact k e he

theorem pollOutputs_nil (c : Config) : PollOutputs c [] := by simp [PollOutputs]

theorem pollOutputs_singleton {c : Config} {f : List Byte} (h : PollFrame c f) :
    PollOutputs c [.tx f] := by simp [PollOutputs, h]

theorem PollOutputs.pollFrame {c : Config} {es : List Output} (h : PollOutputs c es)
    {f : List Byte} (hf : Output.tx f ∈ es) : PollFrame c f := by
  obtain ⟨g, hg, hframe⟩ := h _ hf
  cases hg
  exact hframe

theorem PollOutputs.store_notMem {c : Config} {es : List Output} (h : PollOutputs c es)
    (r : List Byte) : Output.store r ∉ es := by
  intro hr
  obtain ⟨_, hg, -⟩ := h _ hr
  cases hg

theorem timedRequest_outputs (now : Nat) (s : State) :
    ∃ es, (timedRequest now s).outputs = s.outputs ++ es ∧ PollOutputs s.cfg es := by
  unfold timedRequest
  split_ifs
  · exact ⟨_, rfl, pollOutputs_singleton (pollFrame_requestFrame _ _)⟩
  · exact ⟨[], by simp, pollOutputs_nil _⟩

theorem dispatchDecision_outputs {now : Nat} {s : State} (h : s.idle = false) :
    ∃ es, (dispatchDecision now s).outputs = s.outputs ++ es ∧ PollOutputs s.cfg es := by
  rw [dispatchDecision_eq h]
  cases s.pendingAck with
  | none => exact ⟨[], by simp, pollOutputs_nil _⟩
  | some d =>
    have hack := pollOutputs_singleton (pollFrame_ackFrame s.cfg d)
    dsimp only
    split_ifs
    · exact ⟨_, rfl, hack.append (pollOutputs_singleton (pollFrame_requestFrame _ _))⟩
    · exact ⟨_, rfl, hack⟩

/-- A poll only appends to the outputs, and only poll frames. -/
theorem pollStep_outputs (now : Nat) (s : State) :
    ∃ es, (pollStep now s).outputs = s.outputs ++ es ∧ PollOutputs s.cfg es := by
  cases hidle : s.idle with
  | true =>
    rw [pollStep_idle hidle]
    exact ⟨[], by simp, pollOutputs_nil _⟩
  | false =>
    have hidle' : (timedRequest now s).idle = false := (polled_timedRequest now s).idle.trans hidle
    obtain ⟨es, hout, hes⟩ := timedRequest_outputs now s
    obtain ⟨fs, kout, kfs⟩ := dispatchDecision_outputs (now := now) hidle'
    rw [timedRequest_cfg] at kfs
    rw [pollStep_active hidle]
    exact ⟨es ++ fs, by rw [kout, hout, List.append_assoc], hes.append kfs⟩

end Sys2Proof.Machine

open Sys2Proof Sys2Proof.Machine

/-- Settles O40: reception emits no `TX` and a poll emits poll frames only; the other rows emit one
named output or none. -/
theorem outputKindsByInstruction : Obligations.OutputKindsByInstruction := by
  intro i s t h
  cases i with
  | rxByte b =>
    obtain ⟨-, es, hout, hes⟩ := receiveByte_received h
    exact ⟨es, hout, fun f hf => absurd hf (hes f), fun _ _ => .inl ⟨b, rfl⟩⟩
  | dataInbound _ _ _ | finishInbound _ _ _ | otherInbound _ _ _ _ | overlengthInbound _ _ _ =>
    obtain ⟨-, es, hout, hes⟩ := receiveBytes_received h
    exact ⟨es, hout, fun f hf => absurd hf (hes f), fun _ _ => by simp⟩
  | poll now | requestDataOutbound now | ackOutbound now =>
    cases h
    obtain ⟨es, hout, hes⟩ := pollStep_outputs now s
    exact ⟨es, hout, fun f hf => .inl ⟨⟨now, by simp⟩, hes.pollFrame hf⟩,
      fun r hr => absurd hr (hes.store_notMem r)⟩
  | sendEnd | endOutbound =>
    cases h
    exact ⟨[.tx (endFrame s.cfg s.expectedSequence)], rfl,
      fun f hf => .inr ⟨by simp, by simpa [endFrame] using hf⟩, by simp⟩
  | setIdle1 | setIdle0 =>
    cases h
    exact ⟨_, rfl, by simp, by simp⟩
  | reset =>
    cases h
    exact ⟨[], (List.append_nil _).symm, by simp, by simp⟩

end

section
/-! The CRC engine's error detection (spec/40_crc_engine.md R102, R103, R105). Because the polynomial
has the constant term 1, a round loses nothing: the bit it shifts out stands in bit 0 of its result.
So the engine is injective in the register and in each byte. -/

namespace Sys2Proof.Machine

theorem crcUpdate_append (c : U16) (a b : List Byte) :
    crcUpdate c (a ++ b) = crcUpdate (crcUpdate c a) b := List.foldl_append

theorem frameCRC_eq_crc16 (type : Byte) (seq len : U16) (payload : List Byte) :
    frameCRC type seq len payload = crc16 (frameHeader type seq len ++ payload) :=
  (crcUpdate_append _ _ _).symm

/-! ### Injectivity -/

theorem getLsbD_zero_crcBit (c : U16) : (crcBit c).getLsbD 0 = c.getLsbD 15 := by
  have hpoly : crcPoly.getLsbD 0 = true := by decide
  unfold crcBit
  split
  case isTrue htop =>
    rw [BitVec.getLsbD_xor, BitVec.getLsbD_shiftLeft, hpoly, htop]
    rfl
  case isFalse htop =>
    rw [BitVec.getLsbD_shiftLeft, Bool.eq_false_iff.mpr htop]
    rfl

theorem crcBit_injective : Function.Injective crcBit := by
  intro c d h
  have htop : c.getLsbD 15 = d.getLsbD 15 := by
    rw [← getLsbD_zero_crcBit, ← getLsbD_zero_crcBit, h]
  have hshift : c <<< 1 = d <<< 1 := by
    unfold crcBit at h
    rw [htop] at h
    split at h
    · exact (BitVec.xor_left_inj crcPoly).mp h
    · exact h
  ext k hk
  by_cases hlast : k = 15
  · subst hlast
    exact htop
  · have hbit := congrArg (fun v : U16 => v.getLsbD (k + 1)) hshift
    have hk' : k + 1 < 16 := by omega
    simpa [hk'] using hbit

theorem crcBits_injective (n : Nat) : Function.Injective (crcBits n) := by
  induction n with
  | zero => exact Function.injective_id
  | succ n ih => exact ih.comp crcBit_injective

theorem crcByte_left_injective (b : Byte) : Function.Injective (crcByte · b) := fun _ _ h =>
  (BitVec.xor_left_inj _).mp (crcBits_injective 8 h)

theorem byteAtTop_injective :
    Function.Injective fun b : Byte => (b.setWidth 16 <<< 8 : U16) := by
  intro a b h
  refine BitVec.eq_of_getLsbD_eq fun k hk => ?_
  have hbit := congrArg (fun v : U16 => v.getLsbD (8 + k)) h
  have hk' : 8 + k < 16 := by omega
  simpa [hk'] using hbit

theorem crcByte_right_injective (c : U16) : Function.Injective (crcByte c) := fun _ _ h =>
  byteAtTop_injective ((BitVec.xor_right_inj c).mp (crcBits_injective 8 h))

theorem crcUpdate_left_injective (bytes : List Byte) :
    Function.Injective (crcUpdate · bytes) := by
  induction bytes with
  | nil => exact Function.injective_id
  | cons b bytes ih => exact ih.comp (crcByte_left_injective b)

/-! ### Errors in one byte -/

/-- Any error confined to one byte changes the CRC, however many of its bits it flips. -/
theorem crcUpdate_set_ne {bytes : List Byte} {n : Nat} {b b' : Byte} (hb : bytes[n]? = some b)
    (hne : b' ≠ b) (c : U16) : crcUpdate c (bytes.set n b') ≠ crcUpdate c bytes := by
  induction bytes generalizing n c with
  | nil => cases hb
  | cons x bytes ih =>
    cases n with
    | zero =>
      obtain rfl : x = b := Option.some.inj hb
      exact fun h => hne (crcByte_right_injective c (crcUpdate_left_injective bytes h))
    | succ n => exact ih hb (crcByte c x)

theorem flipBit_ne (b : Byte) {k : Nat} (hk : k < 8) : b ^^^ (1#8 <<< k) ≠ b := by
  intro h
  have hbit := congrArg (·.getLsbD k) h
  simp [hk] at hbit

end Sys2Proof.Machine

open Sys2Proof Sys2Proof.Machine

/-- Settles O9: the check value is computed, the rest is R102's definition. -/
theorem crc16IsUpdateFromInit : Obligations.Crc16IsUpdateFromInit :=
  ⟨fun _ => rfl, rfl, by decide +kernel⟩

/-- Settles O10: a left fold over two lists joined. -/
theorem crcIsIncremental : Obligations.CrcIsIncremental :=
  fun c a b => (crcUpdate_append c a b).symm

/-- Settles O12: (a) `FrameCRC` is the CRC of header and payload together; (b) the engine is
injective in each byte. -/
theorem crcDetectsSingleBitErrors : Obligations.CrcDetectsSingleBitErrors := by
  refine ⟨fun c type seq payload => ?roundTrip, fun body n k b hb hk => ?singleBit⟩
  case roundTrip =>
    have hcrc := frameCRC_eq_crc16 type seq (lengthField payload) payload
    refine ⟨frameHeader type seq (lengthField payload) ++ payload, ?_, ?_, hcrc.symm⟩
    · rw [serialize, hcrc]
      rfl
    · rw [List.length_append, frameHeader_length]
  case singleBit => exact crcUpdate_set_ne hb (flipBit_ne b hk) crcInit

end

section
/-! The framing parser, one byte at a time (spec/41_frame_deserializer.md R111 to R120): the next
state in each parser state. -/

namespace Sys2Proof.Machine

theorem setLo8_eq (v : U16) (b : Byte) : setLo8 v b = v.extractLsb' 8 8 ++ b := by
  rw [setLo8, hi8_eq]
  rfl

theorem setHi8_eq (v : U16) (b : Byte) : setHi8 v b = b ++ v.extractLsb' 0 8 := by
  rw [setHi8, lo8_eq]
  rfl

section
variable {s : State} (b : Byte)

theorem receiveByte_seekSof0 (h : s.fsm = .seekSof0) :
    receiveByte b s
      = .next { s with fsm := if b = s.cfg.sof0 then .seekSof1 else .seekSof0 } := by
  simp only [receiveByte, h]
  rfl

theorem receiveByte_seekSof1 (h : s.fsm = .seekSof1) :
    receiveByte b s = .next { s with fsm := if b = s.cfg.sof1 then .type else .seekSof0 } := by
  simp only [receiveByte, h]
  rfl

theorem receiveByte_type (h : s.fsm = .type) :
    receiveByte b s = .next { s with fType := b, fsm := .seq0 } := by
  simp only [receiveByte, h]
  rfl

theorem receiveByte_seq0 (h : s.fsm = .seq0) :
    receiveByte b s = .next { s with fSeq := setLo8 s.fSeq b, fsm := .seq1 } := by
  simp only [receiveByte, h]
  rfl

theorem receiveByte_seq1 (h : s.fsm = .seq1) :
    receiveByte b s = .next { s with fSeq := setHi8 s.fSeq b, fsm := .len0 } := by
  simp only [receiveByte, h]
  rfl

theorem receiveByte_len0 (h : s.fsm = .len0) :
    receiveByte b s = .next { s with fLen := setLo8 s.fLen b, fsm := .len1 } := by
  simp only [receiveByte, h]
  rfl

theorem receiveByte_len1 (h : s.fsm = .len1) :
    receiveByte b s = .next (checkLength { s with fLen := setHi8 s.fLen b }) := by
  simp only [receiveByte, h]
  rfl

theorem receiveByte_crc0 (h : s.fsm = .crc0) :
    receiveByte b s = .next { s with fCrc := setLo8 s.fCrc b, fsm := .crc1 } := by
  simp only [receiveByte, h]
  rfl

theorem receiveByte_crc1 (h : s.fsm = .crc1) :
    receiveByte b s = handle { s with fCrc := setHi8 s.fCrc b, fsm := .seekSof0 } := by
  simp only [receiveByte, h]
  rfl

/-- In `Data` the index cannot wrap: it is below a 16-bit length. -/
theorem dataIdx_succ_toNat (h : s.dataIdx < s.fLen) :
    (s.dataIdx + 1).toNat = s.dataIdx.toNat + 1 := by
  have hlen := s.fLen.isLt
  have hidx : s.dataIdx.toNat < s.fLen.toNat := h
  rw [BitVec.toNat_add, show (1 : U16).toNat = 1 from rfl]
  omega

theorem receiveByte_data (h : s.fsm = .data) (hidx : s.dataIdx < s.fLen)
    (hlen : s.fLen.toNat ≤ s.cfg.cap) :
    receiveByte b s = .next { s with
      buf := s.buf.write s.dataIdx.toNat b
      dataIdx := s.dataIdx + 1
      fsm := if s.dataIdx.toNat + 1 = s.fLen.toNat then .crc0 else .data } := by
  have hcap : s.dataIdx.toNat < s.cfg.cap := lt_of_lt_of_le hidx hlen
  have hlast : s.dataIdx + 1 = s.fLen ↔ s.dataIdx.toNat + 1 = s.fLen.toNat := by
    rw [← BitVec.toNat_inj, dataIdx_succ_toNat hidx]
  simp only [receiveByte, h, parseData, memWrite_within hcap, andThen_next, advanceData,
    State.setBuf_dataIdx, State.setBuf_fLen, hlast]
  split_ifs <;> rfl

end

theorem checkLength_eq (s : State) :
    checkLength s = if s.cfg.cap < s.fLen.toNat then { s with fsm := .seekSof0 }
      else if s.fLen.toNat = 0 then { s with fsm := .crc0 }
      else { s with dataIdx := 0, fsm := .data } := by
  have hzero : s.fLen = 0 ↔ s.fLen.toNat = 0 := by rw [← BitVec.toNat_inj]; rfl
  simp only [checkLength, hzero]
  rfl

end Sys2Proof.Machine

open Sys2Proof Sys2Proof.Machine

/-- Settles O13: the parser's rule in each of the seven states. -/
theorem parserHeaderStates : Obligations.ParserHeaderStates := by
  intro b s
  simp only [← setLo8_eq, ← setHi8_eq]
  exact ⟨receiveByte_seekSof0 b, receiveByte_seekSof1 b, receiveByte_type b, receiveByte_seq0 b,
    receiveByte_seq1 b, receiveByte_len0 b, receiveByte_crc0 b⟩

/-- Settles O14: the length check on the completed `f_len`. -/
theorem parserLengthCheck : Obligations.ParserLengthCheck := by
  intro b s len hf hlen
  rw [← setHi8_eq] at hlen
  subst hlen
  exact (receiveByte_len1 b hf).trans (congrArg _ (checkLength_eq _))

/-- Settles O15: the buffer after the byte is the buffer with one write. -/
theorem parserStoresPayloadByte : Obligations.ParserStoresPayloadByte := by
  rintro b s ⟨hlen, hidx, hbuf, -, -⟩ hf
  have hcap : s.fLen.toNat ≤ s.cfg.cap := hlen (by rw [hf]; rfl)
  have hsorted : s.buf.Sorted := ((Memory.wf_iff _).mp hbuf).1
  exact ⟨s.buf.write s.dataIdx.toNat b, receiveByte_data b hf (hidx hf) hcap,
    Memory.read_write hsorted _ b⟩

end

section
/-! The dispatch of a completed frame (spec/41_frame_deserializer.md R120, spec/42_message_handler.md
R140 to R148): the handler's reads of the buffer, index by index. -/

namespace Sys2Proof.Machine

theorem Memory.readBytes_eq_map_range (m : Memory) (i n : Nat) :
    m.readBytes i n = (List.range n).map fun k => m.read (i + k) := by
  apply List.ext_getElem?
  intro k
  by_cases hk : k < n
  · rw [Memory.getElem?_readBytes m i n k hk]
    simp [hk]
  · rw [List.getElem?_eq_none (by rw [Memory.length_readBytes]; omega),
      List.getElem?_eq_none (by simpa using hk)]

theorem Memory.readBytes_zero_eq_map_range (m : Memory) (n : Nat) :
    m.readBytes 0 n = (List.range n).map m.read := by
  rw [Memory.readBytes_eq_map_range]
  simp only [Nat.zero_add]

/-- A record is its payload without the label byte (R145). -/
theorem Memory.readBytes_one_eq_drop (m : Memory) (n : Nat) :
    m.readBytes 1 (n - 1) = (m.readBytes 0 n).drop 1 := by
  cases n <;> rfl

/-- What the handler does with a frame that fits the buffer, in terms of the frame's payload: the
record it stores is the rest of the payload, because it comes to that only for `DATA_LEN` bytes. -/
theorem handle_payload {s : State} {payload : List Byte} (h : s.fLen.toNat ≤ s.cfg.cap)
    (hpayload : payload = s.buf.readBytes 0 s.fLen.toNat) :
    handle s = .next
      (if frameCRC s.fType s.fSeq s.fLen payload ≠ s.fCrc then
        { s with pendingAck := some ⟨.error, s.fSeq⟩ }
      else if s.fType = s.cfg.tFinish then
        { s with idle := true, pendingAck := none, outputs := s.outputs ++ [.indSet true] }
      else if s.fType ≠ s.cfg.tData then s
      else if s.fLen.toNat ≠ s.cfg.dataLen then { s with pendingAck := some ⟨.error, s.fSeq⟩ }
      else if s.fSeq = s.expectedSequence then
        { s with
          pendingAck := some ⟨.ok, s.expectedSequence⟩
          outputs := s.outputs ++ [.store (payload.drop 1), .indRecord] }
      else if s.fSeq.toNat < s.expectedSequence.toNat then
        { s with pendingAck := some ⟨.ok, s.fSeq⟩ }
      else { s with pendingAck := some ⟨.error, s.fSeq⟩ }) := by
  subst hpayload
  rw [handle_next h]
  by_cases hlen : s.fLen.toNat = s.cfg.dataLen
  · rw [hlen, Memory.readBytes_one_eq_drop]
    rfl
  · simp only [if_pos hlen]

theorem frameHeader_eq (type : Byte) (seq len : U16) :
    frameHeader type seq len = [type, seq.extractLsb' 0 8, seq.extractLsb' 8 8,
      len.extractLsb' 0 8, len.extractLsb' 8 8] := by
  simp only [← lo8_eq, ← hi8_eq]
  rfl

end Sys2Proof.Machine

open Sys2Proof Sys2Proof.Machine

/-- Settles O16: the byte completes `f_crc` and runs the handler, whose frame fits the buffer. -/
theorem completedFrameIsDisposed : Obligations.CompletedFrameIsDisposed := by
  rintro b s t payload ⟨hlen, -⟩ hf hpayload rfl
  have hcap : s.fLen.toNat ≤ s.cfg.cap := hlen (by rw [hf]; rfl)
  rw [← Memory.readBytes_zero_eq_map_range] at hpayload
  rw [← setHi8_eq, ← frameHeader_eq, ← frameCRC_eq_crc16]
  exact (receiveByte_crc1 b hf).trans (handle_payload hcap hpayload)

end

section
/-! Resynchronisation (spec/41_frame_deserializer.md R122, log 15): outside `SeekSOF0` every byte
brings the parser nearer to it. -/

namespace Sys2Proof.Machine

/-- How many bytes can still be received before the parser is in `SeekSOF0`. -/
def State.resyncBound (s : State) : Nat :=
  match s.fsm with
  | .seekSof0 => 0
  | .seekSof1 => s.cfg.cap + 8
  | .type => s.cfg.cap + 7
  | .seq0 => s.cfg.cap + 6
  | .seq1 => s.cfg.cap + 5
  | .len0 => s.cfg.cap + 4
  | .len1 => s.cfg.cap + 3
  | .data => s.fLen.toNat - s.dataIdx.toNat + 2
  | .crc0 => 2
  | .crc1 => 1

theorem resyncBound_eq_zero_iff {s : State} : s.resyncBound = 0 ↔ s.fsm = .seekSof0 := by
  unfold State.resyncBound
  cases s.fsm <;> simp

theorem resyncBound_le {s : State} (h : s.Inv) :
    s.resyncBound ≤ s.cfg.cap + (if s.fsm = .seekSof1 then 8 else 7) := by
  obtain ⟨hlen, -⟩ := h
  unfold State.resyncBound
  cases hf : s.fsm
  case data =>
    have hcap : s.fLen.toNat ≤ s.cfg.cap := hlen (by rw [hf]; rfl)
    simp only [reduceCtorEq, if_false]
    omega
  all_goals simp

theorem resyncBound_checkLength_lt (s : State) :
    (checkLength s).resyncBound < s.cfg.cap + 3 := by
  rw [checkLength_eq]
  split_ifs with hover hzero
  case pos => simp [State.resyncBound]
  case pos => simp [State.resyncBound]
  case neg =>
    show s.fLen.toNat - 0 + 2 < s.cfg.cap + 3
    omega

theorem receiveByte_resyncBound_lt {b : Byte} {s t : State} (h : s.Inv) (hf : s.fsm ≠ .seekSof0)
    (ht : receiveByte b s = .next t) : t.resyncBound < s.resyncBound := by
  obtain ⟨hlen, hidx, -⟩ := h
  cases hs : s.fsm
  case seekSof0 => exact absurd hs hf
  case seekSof1 =>
    rw [receiveByte_seekSof1 b hs] at ht
    cases ht
    split_ifs <;> simp [State.resyncBound, hs]
  case len1 =>
    rw [receiveByte_len1 b hs] at ht
    cases ht
    refine (resyncBound_checkLength_lt _).trans_eq ?_
    simp [State.resyncBound, hs]
  case data =>
    have hcap : s.fLen.toNat ≤ s.cfg.cap := hlen (by rw [hs]; rfl)
    have hlt : s.dataIdx.toNat < s.fLen.toNat := hidx hs
    rw [receiveByte_data b hs (hidx hs) hcap] at ht
    cases ht
    split_ifs <;> simp only [State.resyncBound, hs, dataIdx_succ_toNat (hidx hs)] <;> omega
  case crc1 =>
    rw [receiveByte_crc1 b hs] at ht
    obtain ⟨hframe, -⟩ := handle_frame ht
    have hseek : t.fsm = .seekSof0 := by rw [hframe]
    simp [State.resyncBound, hs, hseek]
  all_goals
    simp only [receiveByte_type b, receiveByte_seq0 b, receiveByte_seq1 b, receiveByte_len0 b,
      receiveByte_crc0 b, hs] at ht
    cases ht
    simp [State.resyncBound, hs]

theorem exists_take_resync {bytes : List Byte} {s : State} (h : s.Inv)
    (hlength : s.resyncBound ≤ bytes.length) :
    ∃ n t, n ≤ s.resyncBound ∧ receiveBytes (bytes.take n) s = .next t ∧ t.fsm = .seekSof0 := by
  induction bytes generalizing s with
  | nil => exact ⟨0, s, Nat.zero_le _, rfl, resyncBound_eq_zero_iff.mp (Nat.le_zero.mp hlength)⟩
  | cons b bytes ih =>
    by_cases hf : s.fsm = .seekSof0
    · exact ⟨0, s, Nat.zero_le _, rfl, hf⟩
    · obtain ⟨u, hu, huinv⟩ := receiveByte_keeps_inv b h
      have hlt := receiveByte_resyncBound_lt h hf hu
      rw [List.length_cons] at hlength
      obtain ⟨n, t, hn, ht, hseek⟩ := ih huinv (by omega)
      refine ⟨n + 1, t, by omega, ?_, hseek⟩
      rw [List.take_succ_cons, receiveBytes, hu, andThen_next, ht]

/-- The parser's state in a next state. -/
def parserAfter : Result → Option ParserState
  | .next t => some t.fsm
  | _ => none

theorem parserAfter_next (t : State) : parserAfter (.next t) = some t.fsm := rfl

/-- TC2, with the parser waiting for the second marker. -/
def awaitingSof1 : State := { State.reset with cfg := Config.tc2, fsm := .seekSof1 }

/-- `SOF1` and a frame of `CAP` bytes under TC2, but for its last CRC byte. -/
def longestUnfinished : List Byte :=
  [0x55, 0x02, 0x00, 0x00, 0x04, 0x00, 0x07, 0x11, 0x22, 0x33, 0x7E]

theorem longestUnfinished_never_resyncs :
    ∀ n ≤ 11, parserAfter (receiveBytes (longestUnfinished.take n) awaitingSof1)
      ≠ some .seekSof0 := by decide

end Sys2Proof.Machine

open Sys2Proof Sys2Proof.Machine

/-- Settles O17: the parser's distance to `SeekSOF0` falls with every byte. -/
theorem parserAlwaysResynchronises : Obligations.ParserAlwaysResynchronises := by
  intro bytes s h hlength
  have hbound := resyncBound_le h
  obtain ⟨n, t, hn, ht, hseek⟩ := exists_take_resync h (hbound.trans hlength)
  exact ⟨n, t, hn.trans hbound, ht, hseek⟩

/-- Refutes O18: under TC2, where `CAP` is 4, the parser in `SeekSOF1` takes 11 = `CAP + 7` bytes
without a visit to `SeekSOF0`. -/
theorem not_parserResyncBoundAsWritten : ¬ Obligations.ParserResyncBoundAsWritten := by
  intro h
  obtain ⟨n, t, hn, ht, hseek⟩ :=
    h longestUnfinished awaitingSof1 (by decide) (by decide) (by decide)
  have hnever := longestUnfinished_never_resyncs n hn
  rw [ht, parserAfter_next, hseek] at hnever
  exact hnever rfl

end

section
/-! Whole frames (spec/41_frame_deserializer.md R117, R123; spec/70_reset_and_hazards.md R237): the
header, the payload and the CRC of a frame as bytes received one after another. -/

namespace Sys2Proof.Machine

theorem receiveBytes_singleton (b : Byte) (s : State) : receiveBytes [b] s = receiveByte b s := by
  simp only [receiveBytes]
  cases receiveByte b s <;> rfl

section
variable {s : State}

/-- The header runs through the parser up to the length check (R111 to R117). -/
theorem receiveBytes_headerBytes (type : Byte) (seq len : U16) (h : s.fsm = .seekSof0) :
    receiveBytes (headerBytes s.cfg type seq len) s
      = .next (checkLength { s with fType := type, fSeq := seq, fLen := len, fsm := .len1 }) := by
  simp [headerBytes, frameHeader, wire16, receiveBytes, receiveByte_seekSof0, h,
    receiveByte_seekSof1, receiveByte_type, receiveByte_seq0, receiveByte_seq1, receiveByte_len0,
    receiveByte_len1, setHi8_setLo8]

/-- The rest of a payload fills the buffer from `data_idx` on and ends in `Crc0` (R118). -/
theorem receiveBytes_payload {payload : List Byte} (h : s.fsm = .data) (hne : payload ≠ [])
    (hlen : s.dataIdx.toNat + payload.length = s.fLen.toNat) (hcap : s.fLen.toNat ≤ s.cfg.cap) :
    receiveBytes payload s = .next { s with
      buf := s.buf.writeBytes s.dataIdx.toNat payload, dataIdx := s.fLen, fsm := .crc0 } := by
  induction payload generalizing s with
  | nil => exact absurd rfl hne
  | cons b payload ih =>
    rw [List.length_cons] at hlen
    have hidx : s.dataIdx < s.fLen := by rw [BitVec.lt_def]; omega
    have hsucc := dataIdx_succ_toNat hidx
    have hrest : (s.dataIdx + 1).toNat + payload.length = s.fLen.toNat := by omega
    rw [receiveBytes, receiveByte_data b h hidx hcap, andThen_next, Memory.writeBytes, ← hsucc]
    by_cases hlast : payload = []
    case pos =>
      subst hlast
      have hend : s.dataIdx + 1 = s.fLen := BitVec.eq_of_toNat_eq hrest
      rw [hend, if_pos rfl]
      rfl
    case neg =>
      have hpos := List.length_pos_iff.mpr hlast
      rw [if_neg (by omega)]
      exact ih rfl hlast hrest hcap

/-- The CRC's two bytes complete `f_crc` and dispatch the frame (R119, R120). -/
theorem receiveBytes_wire16 (crc : U16) (h : s.fsm = .crc0) :
    receiveBytes (wire16 crc) s = handle { s with fCrc := crc, fsm := .seekSof0 } := by
  rw [wire16, receiveBytes, receiveByte_crc0 _ h, andThen_next, receiveBytes_singleton,
    receiveByte_crc1 _ rfl]
  simp only [setHi8_setLo8, join16_hi8_lo8]

/-- From the length check on, the bytes that follow a header within `CAP` are one dispatch
(R117 to R120). -/
theorem receiveBytes_body {payload : List Byte} (crc : U16) (hlen : s.fLen.toNat = payload.length)
    (hcap : payload.length ≤ s.cfg.cap) :
    receiveBytes (payload ++ wire16 crc) (checkLength s) = handle { s with
      fCrc := crc
      dataIdx := if payload = [] then s.dataIdx else s.fLen
      buf := s.buf.writeBytes 0 payload
      fsm := .seekSof0 } := by
  rw [checkLength_eq, if_neg (by omega)]
  by_cases hempty : payload = []
  case pos =>
    subst hempty
    rw [List.length_nil] at hlen
    rw [if_pos hlen, List.nil_append, receiveBytes_wire16 crc rfl]
    rfl
  case neg =>
    have hpos := List.length_pos_iff.mpr hempty
    have hdata := receiveBytes_payload (s := { s with dataIdx := 0, fsm := .data }) rfl hempty
      ((Nat.zero_add _).trans hlen.symm) (hlen.trans_le hcap)
    rw [if_neg (by omega), if_neg hempty, receiveBytes_append, hdata, andThen_next,
      receiveBytes_wire16 crc rfl]
    rfl

/-- A frame within `CAP` that begins in `SeekSOF0` is one dispatch of its fields (R123). -/
theorem receiveBytes_frameBytes {payload : List Byte} (type : Byte) (seq crc : U16)
    (h : s.fsm = .seekSof0) (hwide : payload.length < 2 ^ 16) (hcap : payload.length ≤ s.cfg.cap) :
    receiveBytes (frameBytes s.cfg type seq payload crc) s
      = handle (loadFrame type seq payload crc s) := by
  have hsplit := frameBytes_append s.cfg type seq payload crc []
  rw [List.append_nil, List.append_nil] at hsplit
  rw [hsplit, receiveBytes_append, receiveBytes_headerBytes type seq _ h, andThen_next]
  exact receiveBytes_body crc (lengthField_toNat hwide) hcap

end

end Sys2Proof.Machine

open Sys2Proof Sys2Proof.Machine

/-- Settles O19: the second `SOF0` is no `SOF1` and sends the parser back, so that the `SOF1` comes
to `SeekSOF0`. -/
theorem strayMarkerHidesFrame : Obligations.StrayMarkerHidesFrame := by
  intro s h hne
  have hstray : receiveByte s.cfg.sof0 s = .next { s with fsm := .seekSof1 } := by
    rw [receiveByte_seekSof0 _ h, if_pos rfl]
  have hback : receiveByte s.cfg.sof0 { s with fsm := .seekSof1 } = .next s := by
    rw [receiveByte_seekSof1 _ rfl, if_neg hne, ← h]
  have hskip : receiveByte s.cfg.sof1 s = .next s := by
    rw [receiveByte_seekSof0 _ h, if_neg hne.symm, ← h]
  refine (execAll_map_rxByte [s.cfg.sof0, s.cfg.sof0, s.cfg.sof1] s).trans ?_
  rw [receiveBytes, hstray, andThen_next, receiveBytes, hback, andThen_next,
    receiveBytes_singleton, hskip]

/-- Settles O20: the noise keeps the invariant, and the frame that follows is one dispatch. -/
theorem frameAfterNoiseIsDispatched : Obligations.FrameAfterNoiseIsDispatched := by
  intro noise payload type seq crc s u h hwf hcap hnoise hseek
  obtain ⟨_, hu, huinv⟩ := receiveBytes_keeps_inv noise h
  obtain rfl : u = _ := Host.Outcome.next.inj (hnoise.symm.trans hu)
  obtain ⟨-, -, hbuf, -⟩ := huinv
  have hcfg : u.cfg = s.cfg := (receiveBytes_received hnoise).cfg
  refine ⟨?dispatch, fun a => ?buffer⟩
  case dispatch =>
    have hwide : payload.length < 2 ^ 16 := by
      obtain ⟨-, ⟨-, hmax⟩, -⟩ := (Config.wf_iff _).mp hwf
      omega
    rw [receiveBytes_append, hnoise, andThen_next, ← hcfg]
    exact receiveBytes_frameBytes type seq crc hseek hwide (hcfg ▸ hcap)
  case buffer =>
    have hsorted : u.buf.Sorted := ((Memory.wf_iff _).mp hbuf).1
    refine (Memory.read_writeBytes hsorted 0 payload a).trans ?_
    by_cases ha : a < payload.length <;> simp [ha]

/-- Settles O25: the header ends in the length check, which drops it. -/
theorem overlengthHeaderIsDropped : Obligations.OverlengthHeaderIsDropped := by
  intro type seq len s h hover
  refine (receiveBytes_headerBytes type seq len h).trans (congrArg _ ?_)
  rw [checkLength_eq, if_pos hover, ← h]

end

section
/-! The disposition of a whole frame that arrives in `SeekSOF0` (spec/42_message_handler.md R140 to
R148): the dispatch of the frame registers, read as the frame's own fields. -/

namespace Sys2Proof.Machine

/-- A payload within `CAP` is counted by the 16-bit length field, because R8 bounds `CAP`. -/
theorem length_lt_of_le_cap {c : Config} {payload : List Byte} (hwf : c.wf = true)
    (hcap : payload.length ≤ c.cap) : payload.length < 2 ^ 16 := by
  obtain ⟨-, ⟨-, hmax⟩, -⟩ := (Config.wf_iff _).mp hwf
  omega

section
variable {s u : State} {payload : List Byte} {type : Byte} {seq crc : U16}

/-- The handler reads back the payload that the parser stored. -/
theorem loadFrame_payload (hbuf : s.buf.wf = true) (hwide : payload.length < 2 ^ 16) :
    (loadFrame type seq payload crc s).buf.readBytes 0
      (loadFrame type seq payload crc s).fLen.toNat = payload := by
  have hsorted : s.buf.Sorted := ((Memory.wf_iff _).mp hbuf).1
  show (s.buf.writeBytes 0 payload).readBytes 0 (lengthField payload).toNat = payload
  rw [lengthField_toNat hwide, Memory.readBytes_writeBytes hsorted]

/-- The disposition of a frame within `CAP` that arrives in `SeekSOF0`: the first that holds, in
R140's order. -/
theorem receiveBytes_frameBytes_disposed (h : s.Inv) (hwf : s.cfg.wf = true)
    (hcap : payload.length ≤ s.cfg.cap) (hseek : s.fsm = .seekSof0)
    (hu : u = loadFrame type seq payload crc s) :
    receiveBytes (frameBytes s.cfg type seq payload crc) s = .next
      (if frameCRC type seq (lengthField payload) payload ≠ crc then
        { u with pendingAck := some ⟨.error, seq⟩ }
      else if type = s.cfg.tFinish then
        { u with idle := true, pendingAck := none, outputs := s.outputs ++ [.indSet true] }
      else if type ≠ s.cfg.tData then u
      else if payload.length ≠ s.cfg.dataLen then { u with pendingAck := some ⟨.error, seq⟩ }
      else if seq = s.expectedSequence then
        { u with
          pendingAck := some ⟨.ok, s.expectedSequence⟩
          outputs := s.outputs ++ [.store (payload.drop 1), .indRecord] }
      else if seq.toNat < s.expectedSequence.toNat then { u with pendingAck := some ⟨.ok, seq⟩ }
      else { u with pendingAck := some ⟨.error, seq⟩ }) := by
  subst hu
  obtain ⟨-, -, hbuf, -⟩ := h
  have hwide := length_lt_of_le_cap hwf hcap
  have hlen : (loadFrame type seq payload crc s).fLen.toNat = payload.length :=
    lengthField_toNat hwide
  have hdispatch := handle_payload (hlen.trans_le hcap) (loadFrame_payload hbuf hwide).symm
  rw [hlen] at hdispatch
  exact (receiveBytes_frameBytes type seq crc hseek hwide hcap).trans hdispatch

end

end Sys2Proof.Machine

open Sys2Proof Sys2Proof.Machine

/-- Settles O22: R8 keeps DATA apart from FINISH, so the chain goes on to the length and the
sequence. -/
theorem dataFrameDisposition : Obligations.DataFrameDisposition := by
  intro payload seq crc s u h hwf hcap hseek hu
  obtain ⟨⟨-, -, -, -, -, hfinish, -⟩, -⟩ := (Config.wf_iff _).mp hwf
  have hdisposed := receiveBytes_frameBytes_disposed h hwf hcap hseek hu
  rw [if_neg hfinish, if_neg (not_not.mpr rfl)] at hdisposed
  exact hdisposed

/-- Settles O23: a valid FINISH frame is disposed of before its length and sequence are looked
at. -/
theorem finishFrameDisposition : Obligations.FinishFrameDisposition := by
  intro payload seq crc s u h hwf hcap hseek hu
  have hdisposed := receiveBytes_frameBytes_disposed h hwf hcap hseek hu
  rw [if_pos (Eq.refl s.cfg.tFinish)] at hdisposed
  exact hdisposed

/-- Settles O24: a valid frame of another type ends the chain with nothing more written. -/
theorem otherFrameDisposition : Obligations.OtherFrameDisposition := by
  intro payload type seq crc s u h hwf hcap hseek hdata hfinish hu
  have hdisposed := receiveBytes_frameBytes_disposed h hwf hcap hseek hu
  rw [if_neg hfinish, if_pos hdata] at hdisposed
  exact hdisposed

end

section
/-! The Poll Driver (spec/43_poll_driver.md R160 to R169): a whole poll as one next state, and how
`expected_sequence` moves along a run. -/

namespace Sys2Proof.Machine

/-- `requestDue` is R162's condition, with the elapsed time as a difference of ticks. -/
theorem requestDue_iff {now : Nat} {s : State} (hnow : now < 2 ^ s.cfg.tickW)
    (hlast : s.lastRequestTime < 2 ^ s.cfg.tickW) :
    requestDue now s = true ↔ s.reqDue = true ∨
      (s.cfg.retryPeriod : Int) ≤ ((now : Int) - (s.lastRequestTime : Int)) % 2 ^ s.cfg.tickW := by
  rw [← elapsed_eq hnow hlast]
  simp [requestDue]

/-- Step 2 of a poll: the REQUEST and the two writes that go with it, or nothing (R162, R163). -/
theorem timedRequest_eq (now : Nat) (s : State) :
    timedRequest now s = { s with
      lastRequestTime := if requestDue now s then tickOf s.cfg now else s.lastRequestTime
      reqDue := if requestDue now s then false else s.reqDue
      outputs := s.outputs
        ++ if requestDue now s then [.tx (requestFrame s.cfg s.expectedSequence)] else [] } := by
  unfold timedRequest
  split_ifs
  · exact emitRequest_eq now s
  · rw [List.append_nil]

theorem setPendingAck_none_eq_self {s : State} (h : s.pendingAck = none) :
    { s with pendingAck := none } = s := by rw [← h]

/-- The pending decision is ok for the expected sequence, so its ACK advances it (R165). -/
abbrev State.Advances (s : State) : Prop := s.pendingAck = some ⟨.ok, s.expectedSequence⟩

/-- The frames of a poll while active, in R168's order: the initial or timed REQUEST, the ACK, the
pipelined REQUEST. -/
def pollFrames (now : Nat) (s : State) : List Output :=
  (if requestDue now s then [.tx (requestFrame s.cfg s.expectedSequence)] else [])
    ++ s.pendingAck.toList.map (fun d => .tx (ackFrame s.cfg d))
    ++ (if s.Advances then [.tx (requestFrame s.cfg (s.expectedSequence + 1))] else [])

/-- A poll while active in one next state: steps 2 and 3 of R160 together. -/
theorem pollStep_active_eq {now : Nat} {s : State} (h : s.idle = false) :
    pollStep now s = { s with
      expectedSequence := if s.Advances then s.expectedSequence + 1 else s.expectedSequence
      pendingAck := none
      lastRequestTime :=
        if requestDue now s ∨ s.Advances then tickOf s.cfg now else s.lastRequestTime
      reqDue := if requestDue now s ∨ s.Advances then false else s.reqDue
      outputs := s.outputs ++ pollFrames now s } := by
  have hidle : (timedRequest now s).idle = false := (polled_timedRequest now s).idle.trans h
  rw [pollStep_active h, dispatchDecision_eq hidle, timedRequest_eq]
  obtain hpend | ⟨d, hpend⟩ := Option.eq_none_or_eq_some s.pendingAck
  · simp [pollFrames, State.Advances, hpend]
  · by_cases hok : d = ⟨.ok, s.expectedSequence⟩
    · simp [pollFrames, State.Advances, hpend, hok]
    · simp [pollFrames, State.Advances, hpend, hok]

/-- The ACK of an advancing decision is the ok ACK for the expected sequence. -/
theorem mem_pollFrames_of_advances {now : Nat} {s : State} (h : s.Advances) :
    Output.tx (serialize s.cfg s.cfg.tAck s.expectedSequence [0x00]) ∈ pollFrames now s := by
  have hack : ackFrame s.cfg ⟨.ok, s.expectedSequence⟩
      = serialize s.cfg s.cfg.tAck s.expectedSequence [0x00] := rfl
  have hpend : s.pendingAck = some ⟨.ok, s.expectedSequence⟩ := h
  simp [pollFrames, hpend, hack]

/-- The sequence has advanced by one, with the dispatch of the ok ACK for its old value (R169). -/
def DispatchedOk (s t : State) : Prop :=
  t.expectedSequence = s.expectedSequence + 1
    ∧ s.pendingAck = some ⟨.ok, s.expectedSequence⟩ ∧ s.idle = false ∧ t.pendingAck = none
    ∧ ∃ es, t.outputs = s.outputs ++ es
      ∧ Output.tx (serialize s.cfg s.cfg.tAck s.expectedSequence [0x00]) ∈ es

/-- A poll writes the sequence only while active, and only to advance it. -/
theorem pollStep_dispatchedOk {now : Nat} {s : State}
    (hne : (pollStep now s).expectedSequence ≠ s.expectedSequence) :
    DispatchedOk s (pollStep now s) := by
  cases hidle : s.idle with
  | true => exact absurd (by rw [pollStep_idle hidle]) hne
  | false =>
    rw [pollStep_active_eq hidle] at hne ⊢
    by_cases hadv : s.Advances
    · exact ⟨if_pos hadv, hadv, hidle, rfl, _, rfl, mem_pollFrames_of_advances hadv⟩
    · exact absurd (if_neg hadv) hne

theorem Received.expectedSequence {s t : State} (h : Received s t) :
    t.expectedSequence = s.expectedSequence := by rw [h.1]

/-- Outside `RESET` only the rows that run a poll write the sequence. -/
theorem exec_dispatchedOk {i : Instr} {s t : State} (hi : i ≠ .reset) (h : exec i s = .next t)
    (hne : t.expectedSequence ≠ s.expectedSequence) : DispatchedOk s t := by
  cases i with
  | rxByte b => exact absurd (receiveByte_received h).expectedSequence hne
  | dataInbound _ _ _ | finishInbound _ _ _ | otherInbound _ _ _ _ | overlengthInbound _ _ _ =>
    exact absurd (receiveBytes_received h).expectedSequence hne
  | poll now | requestDataOutbound now | ackOutbound now =>
    cases h
    exact pollStep_dispatchedOk hne
  | setIdle1 | setIdle0 | sendEnd | endOutbound =>
    cases h
    exact absurd rfl hne
  | reset => exact absurd rfl hi

/-- Along a run without `RESET` every instruction advances the sequence at most once. -/
theorem execAll_expectedSequence {is : List Instr} {s t : State} (his : Instr.reset ∉ is)
    (h : execAll is s = .next t) :
    ∃ n ≤ is.length, t.expectedSequence = s.expectedSequence + BitVec.ofNat 16 n := by
  induction is generalizing s with
  | nil =>
    cases h
    exact ⟨0, le_rfl, by simp⟩
  | cons i is ih =>
    obtain ⟨hi, his⟩ := not_or.mp (mt List.mem_cons.mpr his)
    obtain ⟨u, hu, h⟩ := andThen_eq_next.mp h
    obtain ⟨n, hn, ht⟩ := ih his h
    by_cases hsame : u.expectedSequence = s.expectedSequence
    · exact ⟨n, hn.trans (Nat.le_succ _), by rw [ht, hsame]⟩
    · obtain ⟨hsucc, -⟩ := exec_dispatchedOk (Ne.symm hi) hu hsame
      refine ⟨n + 1, Nat.succ_le_succ hn, ?_⟩
      rw [ht, hsucc, BitVec.ofNat_add, add_assoc, add_comm 1]
      rfl

end Sys2Proof.Machine

open Sys2Proof Sys2Proof.Machine

/-- Settles O27. -/
theorem pollWhileIdleIsSilent : Obligations.PollWhileIdleIsSilent := fun _ _ hidle =>
  congrArg Host.Outcome.next (pollStep_idle hidle)

/-- Settles O28: `due` is `requestDue`, `advance` is `State.Advances`, and a tick of `TICK_W` bits
is its own tick. -/
theorem pollWhileActive : Obligations.PollWhileActive := by
  intro now s due advance _ _ hidle hnow hlast hdue hadv
  have hdue' : requestDue now s = true ↔ due := (requestDue_iff hnow hlast).trans hdue.symm
  have hadv' : s.Advances ↔ advance := hadv.symm
  refine congrArg Host.Outcome.next ((pollStep_active_eq hidle).trans ?_)
  simp only [pollFrames, hdue', hadv', tickOf_eq hnow, List.append_assoc]
  cases s.pendingAck <;> rfl

/-- Settles O29. -/
theorem sequenceAdvancesOnlyOnOkDispatch : Obligations.SequenceAdvancesOnlyOnOkDispatch :=
  ⟨fun _ _ _ hi h hne => exec_dispatchedOk hi h hne, fun _ _ _ his h =>
    execAll_expectedSequence his h⟩

/-- Settles O33: with no decision pending a poll's only frame is the REQUEST that is due. -/
theorem requestRowEmission : Obligations.RequestRowEmission := by
  refine fun now s => ⟨rfl, pollWhileIdleIsSilent now s, fun hidle hpend hnow hlast => ?_⟩
  have hpoll := pollWhileActive now s _ False hidle hnow hlast Iff.rfl (by simp [hpend])
  refine hpoll.trans (congrArg Host.Outcome.next ?_)
  by_cases hdue : s.reqDue = true ∨ (s.cfg.retryPeriod : Int)
      ≤ ((now : Int) - (s.lastRequestTime : Int)) % 2 ^ s.cfg.tickW
  · simp [hpend, hdue]
  · simp [hpend, hdue, setPendingAck_none_eq_self hpend]

/-- Settles O34: with no initial or timed REQUEST due a poll begins with the pending decision. -/
theorem ackRowDispatch : Obligations.AckRowDispatch := by
  refine fun now s => ⟨rfl, pollWhileIdleIsSilent now s,
    fun hidle hreq hnow hlast hearly => ⟨fun hpend => ?none, fun d hpend hd => ?kept,
      fun hpend => ?advance⟩⟩
  all_goals
    have hpoll := pollWhileActive now s False (s.pendingAck = some ⟨.ok, s.expectedSequence⟩)
      hidle hnow hlast (by simp [hreq, hearly]) Iff.rfl
    refine hpoll.trans (congrArg Host.Outcome.next ?_)
  case none => simp [hpend, setPendingAck_none_eq_self hpend]
  case kept => simp [hpend, hd]
  case advance => simp [hpend]

/-- Settles O41: reception transmits nothing at all, and a poll while idle emits nothing. -/
theorem nothingIsSentWhileIdle : Obligations.NothingIsSentWhileIdle := by
  intro i s t hidle h hend hrow
  cases i with
  | rxByte b => exact (receiveByte_received h).2
  | dataInbound _ _ _ | finishInbound _ _ _ | otherInbound _ _ _ _ | overlengthInbound _ _ _ =>
    exact (receiveBytes_received h).2
  | poll now | requestDataOutbound now | ackOutbound now =>
    cases h
    rw [pollStep_idle hidle]
    exact ⟨[], by simp, by simp⟩
  | setIdle1 | setIdle0 =>
    cases h
    exact ⟨_, rfl, by simp⟩
  | reset =>
    cases h
    exact ⟨[], (List.append_nil _).symm, by simp⟩
  | sendEnd => exact absurd rfl hend
  | endOutbound => exact absurd rfl hrow

end

section
/-! Proof of the idle control statement (spec/44_idle_control.md R180 to R182). -/

namespace Sys2Proof.Machine

/-- `SET_IDLE(1)` runs `IDLE_ON()` (R180). -/
theorem exec_setIdle1_eq_idleOn (s : State) : exec .setIdle1 s = .next (idleOn s) := rfl

/-- `SET_IDLE(0)` runs `IDLE_OFF()` (R180). -/
theorem exec_setIdle0_eq_idleOff (s : State) : exec .setIdle0 s = .next (idleOff s) := rfl

end Sys2Proof.Machine

open Sys2Proof Sys2Proof.Machine

/-- Settles O30: each setting runs its effect of R181 or R182 with no test of `idle` before it, so
one that changes nothing still emits. -/
theorem setIdleEffects : Obligations.SetIdleEffects := by
  refine fun s => ⟨?on, ?off⟩
  case on => rw [exec_setIdle1_eq_idleOn, idleOn_eq]
  case off => rw [exec_setIdle0_eq_idleOff, idleOff_eq]

end

section
/-! The frame serializer (spec/45_frame_serializer.md R190, R193, R195): the bytes of a serialized
frame, its way back through the parser, and the END frame. -/

namespace Sys2Proof.Machine

@[simp] theorem wire16_length (v : U16) : (wire16 v).length = 2 := rfl

/-- `9 + L` bytes: two markers, the header of five bytes, the payload, the CRC of two (R190). -/
theorem serialize_length (c : Config) (type : Byte) (seq : U16) (payload : List Byte) :
    (serialize c type seq payload).length = 9 + payload.length := by
  simp only [serialize, frameBytes, List.length_cons, List.length_append, frameHeader_length,
    wire16_length]
  omega

/-- The types the engine transmits are none that the handler acts on, by R8 (R195). -/
theorem transmitted_ne_handled {c : Config} {type : Byte} (hwf : c.wf = true)
    (htype : type = c.tRequestData ∨ type = c.tAck ∨ type = c.tEnd) :
    type ≠ c.tFinish ∧ type ≠ c.tData := by
  obtain ⟨⟨hreqData, -, hreqFinish, -, hdataAck, -, hdataEnd, hackFinish, -, hfinishEnd⟩, -⟩ :=
    (Config.wf_iff c).mp hwf
  obtain rfl | rfl | rfl := htype
  · exact ⟨hreqFinish, hreqData⟩
  · exact ⟨hackFinish, hdataAck.symm⟩
  · exact ⟨hfinishEnd.symm, hdataEnd.symm⟩

/-- A frame whose CRC is right and whose type is neither FINISH nor DATA changes nothing (R143). -/
theorem handle_ignored {s : State} (hcap : s.fLen.toNat ≤ s.cfg.cap)
    (hcrc : frameCRC s.fType s.fSeq s.fLen (s.buf.readBytes 0 s.fLen.toNat) = s.fCrc)
    (hfinish : s.fType ≠ s.cfg.tFinish) (hdata : s.fType ≠ s.cfg.tData) :
    handle s = .next s := by
  rw [handle_payload hcap rfl, if_neg (not_not.mpr hcrc), if_neg hfinish, if_pos hdata]

/-- `SEND_END` without a test of `idle`: one output, no other field (R193). -/
theorem emitEnd_eq (s : State) : emitEnd s = { s with
    outputs := s.outputs ++ [.tx (serialize s.cfg s.cfg.tEnd s.expectedSequence [])] } := rfl

theorem exec_sendEnd_eq_emitEnd (s : State) : exec .sendEnd s = .next (emitEnd s) := rfl

/-- The END row is the event that transmits it (log 10). -/
theorem exec_endOutbound_eq_sendEnd (s : State) : exec .endOutbound s = exec .sendEnd s := rfl

end Sys2Proof.Machine

open Sys2Proof Sys2Proof.Machine

/-- Settles O31: the event is `emitEnd` in every state. -/
theorem sendEndEmitsOneFrame : Obligations.SendEndEmitsOneFrame := fun s => by
  rw [exec_sendEnd_eq_emitEnd, emitEnd_eq]

/-- Settles O32: the row is that event, so O31 says what it does. -/
theorem endRowEmission : Obligations.EndRowEmission := fun s =>
  ⟨exec_endOutbound_eq_sendEnd s, (exec_endOutbound_eq_sendEnd s).trans (sendEndEmitsOneFrame s)⟩

/-- Settles O35: header and CRC are the low and high bytes of their fields. -/
theorem serializedLayout : Obligations.SerializedLayout := by
  rintro c type seq len crc payload hlen hcrc
  refine ⟨?bytes, serialize_length c type seq payload⟩
  case bytes =>
    have hfield : lengthField payload = len := hlen.symm
    rw [← frameHeader_eq] at hcrc
    have hframe : frameCRC type seq len payload = crc := hcrc.symm
    rw [serialize, hfield, hframe, frameBytes, hfield, frameHeader_eq, wire16, lo8_eq, hi8_eq]
    rfl

/-- Settles O21: the frame is one dispatch like any other (R123); it carries the CRC that the
handler computes again, and R8 keeps the transmitted types apart from those the handler acts on. -/
theorem serializedFrameRoundTrip : Obligations.SerializedFrameRoundTrip := by
  rintro payload type seq s u ⟨-, -, hbuf, -⟩ hwf hcap hseek rfl
  have hwide := length_lt_of_le_cap hwf hcap
  have hlen := lengthField_toNat hwide
  have hread := loadFrame_payload (type := type) (seq := seq)
    (crc := frameCRC type seq (lengthField payload) payload) hbuf hwide
  refine ⟨receiveBytes_frameBytes type seq _ hseek hwide hcap, rfl, rfl, hlen, ?payload, rfl,
    fun htype => ?ignored⟩
  case payload => exact (Memory.readBytes_zero_eq_map_range _ _).symm.trans hread
  case ignored =>
    obtain ⟨hfinish, hdata⟩ := transmitted_ne_handled hwf htype
    exact handle_ignored (hlen.trans_le hcap) (congrArg (frameCRC type seq _) hread) hfinish hdata

end

section
/-! No instruction faults (spec/60_exceptions.md R200). -/

namespace Sys2Proof.Machine

/-- No meaning withdraws an output (log 4); O40 says in addition which kinds the new ones are. -/
theorem exec_outputs {i : Instr} {s t : State} (h : exec i s = .next t) :
    ∃ es, t.outputs = s.outputs ++ es := by
  obtain ⟨es, hout, -⟩ := outputKindsByInstruction i s t h
  exact ⟨es, hout⟩

end Sys2Proof.Machine

open Sys2Proof Sys2Proof.Machine

/-- Settles O37: the invariant gives the next state, since it keeps every buffer access inside `CAP`
(R51), and any next state has only appended. -/
theorem everyInstructionCompletes : Obligations.EveryInstructionCompletes := by
  intro i s hs
  obtain ⟨t, ht, -⟩ := exec_keeps_inv i hs
  obtain ⟨es, hout⟩ := exec_outputs ht
  exact ⟨t, es, ht, hout⟩

end

section
/-! Reset and the hazards between a frame's disposition and the poll that answers it
(spec/70_reset_and_hazards.md R230, R235, R236, R242). -/

namespace Sys2Proof.Machine

theorem exec_reset_eq (s : State) : exec .reset s = .next { s with
    expectedSequence := 0x0000, idle := false, pendingAck := none, reqDue := true
    fsm := .seekSof0 } := rfl

/-! ### A frame that arrives whole between two polls -/

/-- The invariant holds of the next state of any instruction, whichever way that state is known. -/
theorem inv_of_exec {i : Instr} {s t : State} (h : s.Inv) (ht : exec i s = .next t) : t.Inv := by
  obtain ⟨t', ht', hinv⟩ := exec_keeps_inv i h
  rw [ht] at ht'
  cases ht'
  exact hinv

/-- Between frames, a frame with these fields is a valid DATA frame with the length of a record
(R141, R144). What becomes of it is up to its sequence. -/
structure State.TakesRecord (s : State) (seq : U16) (payload : List Byte) (crc : U16) : Prop where
  inv : s.Inv
  wf : s.cfg.wf = true
  length : payload.length = s.cfg.dataLen
  between : s.fsm = .seekSof0
  crc : crc = frameCRC s.cfg.tData seq (BitVec.ofNat 16 payload.length) payload

/-- The state after the accepted record of a DATA frame (R145). -/
def recordStored (seq : U16) (payload : List Byte) (crc : U16) (s : State) : State :=
  { loadFrame s.cfg.tData seq payload crc s with
    pendingAck := some ⟨.ok, s.expectedSequence⟩
    outputs := s.outputs ++ [.store (payload.drop 1), .indRecord] }

section
variable {s : State} {seq crc : U16} {payload : List Byte}

/-- R8 bounds `DATA_LEN` by `CAP`. -/
theorem State.TakesRecord.length_le_cap (h : s.TakesRecord seq payload crc) :
    payload.length ≤ s.cfg.cap := by
  obtain ⟨-, -, ⟨-, hcap⟩, -⟩ := (Config.wf_iff _).mp h.wf
  exact h.length.trans_le hcap

/-- Such a frame passes the checks of the CRC and the length, and its sequence decides (R145 to
R148). -/
theorem State.TakesRecord.exec_dataInbound (h : s.TakesRecord seq payload crc) :
    exec (.dataInbound seq payload crc) s = .next
      (if seq = s.expectedSequence then recordStored seq payload crc s
      else if seq.toNat < s.expectedSequence.toNat then
        { loadFrame s.cfg.tData seq payload crc s with pendingAck := some ⟨.ok, seq⟩ }
      else { loadFrame s.cfg.tData seq payload crc s with pendingAck := some ⟨.error, seq⟩ }) := by
  have hdisposed := dataFrameDisposition payload seq crc s _ h.inv h.wf h.length_le_cap h.between rfl
  rw [if_neg (not_not.mpr h.crc.symm), if_neg (not_not.mpr h.length)] at hdisposed
  exact hdisposed

/-- In order: the record is stored (R145). -/
theorem State.TakesRecord.exec_inOrder (h : s.TakesRecord seq payload crc)
    (hseq : seq = s.expectedSequence) :
    exec (.dataInbound seq payload crc) s = .next (recordStored seq payload crc s) := by
  rw [h.exec_dataInbound, if_pos hseq]

/-- Behind the expected sequence: acknowledged again and not stored (R146). -/
theorem State.TakesRecord.exec_duplicate (h : s.TakesRecord seq payload crc)
    (hseq : seq.toNat < s.expectedSequence.toNat) :
    exec (.dataInbound seq payload crc) s = .next
      { loadFrame s.cfg.tData seq payload crc s with pendingAck := some ⟨.ok, seq⟩ } := by
  rw [h.exec_dataInbound, if_neg (ne_of_apply_ne BitVec.toNat hseq.ne), if_pos hseq]

/-- The parser is ready for the same frame again as soon as it has been stored. -/
theorem State.TakesRecord.recordStored (h : s.TakesRecord seq payload crc)
    (hseq : seq = s.expectedSequence) :
    (recordStored seq payload crc s).TakesRecord seq payload crc where
  inv := inv_of_exec h.inv (h.exec_inOrder hseq)
  wf := h.wf
  length := h.length
  between := rfl
  crc := h.crc

/-- A poll leaves the parser alone. -/
theorem State.TakesRecord.pollStep (now : Nat) (h : s.TakesRecord seq payload crc) :
    (pollStep now s).TakesRecord seq payload crc := by
  have hinv := (polled_pollStep now s).inv h.inv
  obtain ⟨hframe, -⟩ := polled_pollStep now s
  rw [hframe] at hinv ⊢
  exact ⟨hinv, h.wf, h.length, h.between, h.crc⟩

/-- A frame whose CRC is wrong, of whatever type, leaves the error decision for the sequence it
carries (R141, R150). -/
theorem exec_otherInbound_corrupt {type : Byte} (h : s.Inv) (hwf : s.cfg.wf = true)
    (hcap : payload.length ≤ s.cfg.cap) (hseek : s.fsm = .seekSof0)
    (hcrc : crc ≠ frameCRC type seq (BitVec.ofNat 16 payload.length) payload) :
    exec (.otherInbound type seq payload crc) s = .next
      { loadFrame type seq payload crc s with pendingAck := some ⟨.error, seq⟩ } := by
  have hdisposed := receiveBytes_frameBytes_disposed (type := type) (seq := seq) (crc := crc)
    h hwf hcap hseek rfl
  rw [lengthField, if_pos hcrc.symm] at hdisposed
  exact hdisposed

end

/-! ### A poll at which no REQUEST is due of itself -/

/-- The engine is active, and at tick `now` neither the initial nor a timed REQUEST is due (R162),
because a REQUEST went out at that very tick. -/
structure State.QuietAt (now : Nat) (s : State) : Prop where
  active : s.idle = false
  reqDue : s.reqDue = false
  now_eq : now = s.lastRequestTime
  tick : s.lastRequestTime < 2 ^ s.cfg.tickW
  period : 0 < s.cfg.retryPeriod

section
variable {s : State} {now : Nat}

/-- No time has elapsed, which is less than the period. -/
theorem State.QuietAt.elapsed_lt (h : s.QuietAt now) :
    ((now : Int) - (s.lastRequestTime : Int)) % 2 ^ s.cfg.tickW < s.cfg.retryPeriod := by
  rw [h.now_eq, sub_self, Int.zero_emod]
  exact_mod_cast h.period

/-- With no decision pending the poll does nothing. -/
theorem State.QuietAt.exec_poll_none (h : s.QuietAt now) (hpend : s.pendingAck = none) :
    exec (.poll now) s = .next s := by
  obtain ⟨hrow, -, hactive⟩ := ackRowDispatch now s
  obtain ⟨hnone, -, -⟩ := hactive h.active h.reqDue (h.now_eq.trans_lt h.tick) h.tick h.elapsed_lt
  exact hrow.symm.trans (hnone hpend)

/-- An error decision is sent, and the sequence stays (R164, R166). -/
theorem State.QuietAt.exec_poll_error {seq : U16} (h : s.QuietAt now)
    (hpend : s.pendingAck = some ⟨.error, seq⟩) :
    exec (.poll now) s = .next { s with
      pendingAck := none
      outputs := s.outputs ++ [.tx (serialize s.cfg s.cfg.tAck seq [0x01])] } := by
  obtain ⟨hrow, -, hactive⟩ := ackRowDispatch now s
  obtain ⟨-, hkept, -⟩ := hactive h.active h.reqDue (h.now_eq.trans_lt h.tick) h.tick h.elapsed_lt
  exact hrow.symm.trans (hkept _ hpend (by simp))

/-- The ok decision for the expected sequence is sent, and the next record requested (R165). -/
theorem State.QuietAt.exec_poll_advances (h : s.QuietAt now) (hadv : s.Advances) :
    exec (.poll now) s = .next { s with
      expectedSequence := s.expectedSequence + 1
      pendingAck := none
      lastRequestTime := now
      reqDue := false
      outputs := s.outputs
        ++ [.tx (serialize s.cfg s.cfg.tAck s.expectedSequence [0x00]),
            .tx (serialize s.cfg s.cfg.tRequestData (s.expectedSequence + 1) [])] } := by
  obtain ⟨hrow, -, hactive⟩ := ackRowDispatch now s
  obtain ⟨-, -, hadvance⟩ := hactive h.active h.reqDue (h.now_eq.trans_lt h.tick) h.tick h.elapsed_lt
  exact hrow.symm.trans (hadvance hadv)

end

/-- A poll while active advances the sequence when the ok decision for it is pending, whatever else
is due. -/
theorem pollStep_expectedSequence_of_advances {s : State} (now : Nat) (hidle : s.idle = false)
    (hadv : s.Advances) : (pollStep now s).expectedSequence = s.expectedSequence + 1 := by
  rw [pollStep_active_eq hidle]
  exact if_pos hadv

/-- Below the wrap (R240) a sequence is behind its successor. -/
theorem toNat_lt_toNat_add_one {seq : U16} (h : seq ≠ 0xFFFF) :
    seq.toNat < (seq + 1).toNat := by
  bv_omega

/-- A run, put together instruction by instruction. -/
theorem execAll_cons_next {i : Instr} {is : List Instr} {s t u : State} (h : exec i s = .next t)
    (hrest : execAll is t = .next u) : execAll (i :: is) s = .next u :=
  andThen_eq_next.mpr ⟨t, h, hrest⟩

theorem execAll_singleton_next {i : Instr} {s t : State} (h : exec i s = .next t) :
    execAll [i] s = .next t := (execAll_singleton i s).trans h

end Sys2Proof.Machine

open Sys2Proof Sys2Proof.Machine

/-- Settles O1. -/
theorem resetStartsSession : Obligations.ResetStartsSession := fun s =>
  ⟨_, exec_reset_eq s, rfl, rfl, rfl, rfl, rfl, rfl, rfl, rfl⟩

/-- Settles O2: the parser is in no frame, the buffer has no cell, and tick 0 fits every width. -/
theorem resetStateMeetsInvariant : Obligations.ResetStateMeetsInvariant := by
  refine ⟨⟨?body, ?index, Memory.wf_nil, ?within, Nat.two_pow_pos _⟩, rfl, rfl, rfl, rfl, rfl, rfl⟩
  case body => exact fun h => Bool.noConfusion h
  case index => exact fun h => ParserState.noConfusion h
  case within => exact fun c hc => absurd hc List.not_mem_nil

/-- Settles O44: storing leaves `expected_sequence` as it is, so the second delivery is in order too;
the poll advances it, so the third is a duplicate. -/
theorem doubleStorageBeforePoll : Obligations.DoubleStorageBeforePoll := by
  intro now payload seq crc s hinv hwf hlen hseek hidle hseq hlast hcrc
  have hfirst : s.TakesRecord seq payload crc := ⟨hinv, hwf, hlen, hseek, hcrc⟩
  have hsecond := hfirst.recordStored hseq
  have hthird := (hsecond.recordStored hseq).pollStep now
  have hstored := execAll_cons_next (hfirst.exec_inOrder hseq)
    (execAll_singleton_next (hsecond.exec_inOrder hseq))
  have hadvanced : (pollStep now
      (recordStored seq payload crc (recordStored seq payload crc s))).expectedSequence = seq + 1 :=
    hseq ▸ pollStep_expectedSequence_of_advances now hidle rfl
  have hbehind := hadvanced ▸ toNat_lt_toNat_add_one hlast
  exact ⟨_, _, _, hstored, List.append_assoc _ _ _, rfl, hadvanced, hthird.exec_duplicate hbehind,
    rfl, rfl⟩

/-- Settles O45: the corrupt frame's decision replaces the ok decision (R150), so the poll finds an
error decision only. -/
theorem overwrittenOkDecisionIsLost : Obligations.OverwrittenOkDecisionIsLost := by
  intro now payload payload' seq seq' crc crc' type s hinv hwf hlen hcap hseek hidle hreq hnow hperiod
    hseq hcrc hcrc'
  have hrecord : s.TakesRecord seq payload crc := ⟨hinv, hwf, hlen, hseek, hcrc⟩
  have hstored := hrecord.exec_inOrder hseq
  have hoverwritten := exec_otherInbound_corrupt (hrecord.recordStored hseq).inv hwf hcap rfl hcrc'
  obtain ⟨-, -, -, -, htick⟩ := hinv
  have hquiet : State.QuietAt now { loadFrame type seq' payload' crc' (recordStored seq payload crc s)
      with pendingAck := some ⟨.error, seq'⟩ } := ⟨hidle, hreq, hnow, htick, hperiod⟩
  have hpoll := hquiet.exec_poll_error rfl
  exact ⟨_, execAll_cons_next hstored (execAll_cons_next hoverwritten (execAll_singleton_next hpoll)),
    rfl, List.append_assoc _ _ _⟩

/-- Settles O46: the handler does not look at `idle` (R149). `SET_IDLE(0)` keeps the decision for
the poll after it, while a poll that comes first clears it (R161). -/
theorem decisionMadeWhileIdle : Obligations.DecisionMadeWhileIdle := by
  rintro now payload seq crc s hinv hwf hlen hseek hidle hreq hnow hperiod rfl hcrc
  have hrecord : s.TakesRecord s.expectedSequence payload crc := ⟨hinv, hwf, hlen, hseek, hcrc⟩
  have hstored := hrecord.exec_inOrder rfl
  have hsilent := pollWhileIdleIsSilent now (recordStored s.expectedSequence payload crc s) hidle
  obtain ⟨-, -, -, -, htick⟩ := hinv
  have hquiet (d : Option Decision) : State.QuietAt now
      (idleOff { recordStored s.expectedSequence payload crc s with pendingAck := d }) :=
    ⟨rfl, hreq, hnow, htick, hperiod⟩
  refine ⟨?sent, ?discarded⟩
  case sent =>
    have hpoll := (hquiet (some ⟨.ok, s.expectedSequence⟩)).exec_poll_advances rfl
    refine ⟨_, execAll_cons_next hstored (execAll_cons_next (exec_setIdle0_eq_idleOff _)
      (execAll_singleton_next hpoll)), rfl, ?outputs⟩
    case outputs => simp [idleOff_eq, recordStored, loadFrame]
  case discarded =>
    have hpoll := (hquiet none).exec_poll_none rfl
    exact ⟨_, execAll_cons_next hstored (execAll_cons_next hsilent
      (execAll_cons_next (exec_setIdle0_eq_idleOff _) (execAll_singleton_next hpoll))), rfl,
      List.append_assoc _ _ _⟩

end
